-- ==== Sys2Proof/Word.lean ====
section
/-! DEFINITION. The words of the block: the selector, the register words and the frequency unit. -/

namespace Sys2Proof

/-- The 4-bit operation selector `op[3:0]` (30_encoding R40). -/
abbrev Selector := BitVec 4

/-- A lookup-table entry: the 16-bit register encoding (R44). -/
abbrev TableWord := BitVec 16

/-- The 32-bit fractional register word (R45). -/
abbrev FracWord := BitVec 32

/-- A frequency in Hz: an exact rational (R7, R56). -/
abbrev Hz := Rat

end Sys2Proof
end

