-- ==== Sys2Proof/Syntax.lean ====
section
/-! DEFINITION. The operations of the block, one constructor per row of the opcode table (30_encoding R40), each with
the operands of its format (R41). -/

namespace Sys2Proof

/-- One operation with its operands. A 1-bit port is a `Bool`; a rational port is an exact rational (R42 (c)). -/
inductive Instr where
  /-- `RESET`, format Z (R100). -/
  | reset
  /-- `PLL_UPDATE_ALL`, format PA (R52). -/
  | pllUpdateAll (F : BitVec 13) (R : BitVec 6) (OD : BitVec 3) (ACD : Nat) (f p : BitVec 8)
  /-- `PLL_UPDATE_FRAC`, format PF (R53). -/
  | pllUpdateFrac (f p : BitVec 8) (en : Bool)
  /-- `PLL_UPDATE_FRAC_REG`, format PR (R54). -/
  | pllUpdateFracReg (word : FracWord)
  /-- `PLL_CALC_FREQ`, format Z (R51). -/
  | pllCalcFreq
  /-- `PFD_GET_ERROR`, format CN (R61); `pf = none` is the absent operand, which means 1. -/
  | pfdGetError (count : Nat) (pf : Option Rat)
  /-- `CTRL_CORE`, format EF (R71). -/
  | ctrlCore (error : Rat) (firstLoop : Bool)
  /-- `CTRL_LUT`, format EF (R74). -/
  | ctrlLut (error : Rat) (firstLoop : Bool)
  /-- `CTRL_SDM`, format EF (R75). -/
  | ctrlSdm (error : Rat) (firstLoop : Bool)
  /-- `LUT_GET_FREQ`, format DC (R81); `ctrl` is ignored when `ctrlValid = false`. -/
  | lutGetFreq (ctrlValid : Bool) (ctrl : Rat)
  /-- `SDM_SET_POINT`, format SP (R90). -/
  | sdmSetPoint (sdmIn : Int)
  /-- `SDM_TICK`, format Z (R93). -/
  | sdmTick
  /-- `STEP_LUT`, format CN (R101). -/
  | stepLut (count : Nat) (pf : Option Rat)
  /-- `STEP_SDM`, format CN (R102). -/
  | stepSdm (count : Nat) (pf : Option Rat)
  /-- `OBSERVE`, format Z (R103). -/
  | observe
  /-- The reserved selector `1111` (R46 (a)). -/
  | reserved
  deriving DecidableEq, Repr

end Sys2Proof
end

