-- ==== Sys2Proof/Decode.lean ====
section
/-! DEFINITION. What a host presents (30_encoding R40, R41): a 4-bit selector and the operand ports; the decoder, the
encoder, and the opcode table's view of both. -/

namespace Sys2Proof

/-- The ports of the block at one operation. Every port carries some value; an operation reads the ports of its format
and no other (R41). `pf = none` is the absent operand. -/
structure Frame where
  op : Selector
  F : BitVec 13 := 0
  R : BitVec 6 := 0
  OD : BitVec 3 := 0
  ACD : Nat := 0
  f : BitVec 8 := 0
  p : BitVec 8 := 0
  en : BitVec 1 := 0
  word : FracWord := 0
  count : Nat := 0
  pf : Option Rat := none
  error : Rat := 0
  firstLoop : BitVec 1 := 0
  ctrlValid : BitVec 1 := 0
  ctrl : Rat := 0
  sdmIn : Int := 0
  deriving DecidableEq, Repr

/-- A 1-bit port as a flag. -/
def bitFlag (b : BitVec 1) : Bool := b.getLsbD 0

/-- The operation a host presents (R40). Total: the selector alone names it (R47), and `1111` is the reserved one. -/
def decode (w : Frame) : Instr :=
  match w.op.toNat with
  | 0 => .reset
  | 1 => .pllUpdateAll w.F w.R w.OD w.ACD w.f w.p
  | 2 => .pllUpdateFrac w.f w.p (bitFlag w.en)
  | 3 => .pllUpdateFracReg w.word
  | 4 => .pllCalcFreq
  | 5 => .pfdGetError w.count w.pf
  | 6 => .ctrlCore w.error (bitFlag w.firstLoop)
  | 7 => .ctrlLut w.error (bitFlag w.firstLoop)
  | 8 => .ctrlSdm w.error (bitFlag w.firstLoop)
  | 9 => .lutGetFreq (bitFlag w.ctrlValid) w.ctrl
  | 10 => .sdmSetPoint w.sdmIn
  | 11 => .sdmTick
  | 12 => .stepLut w.count w.pf
  | 13 => .stepSdm w.count w.pf
  | 14 => .observe
  | _ => .reserved

/-- The selector of an operation (R40's table). -/
def selector : Instr → Selector
  | .reset => 0b0000
  | .pllUpdateAll _ _ _ _ _ _ => 0b0001
  | .pllUpdateFrac _ _ _ => 0b0010
  | .pllUpdateFracReg _ => 0b0011
  | .pllCalcFreq => 0b0100
  | .pfdGetError _ _ => 0b0101
  | .ctrlCore _ _ => 0b0110
  | .ctrlLut _ _ => 0b0111
  | .ctrlSdm _ _ => 0b1000
  | .lutGetFreq _ _ => 0b1001
  | .sdmSetPoint _ => 0b1010
  | .sdmTick => 0b1011
  | .stepLut _ _ => 0b1100
  | .stepSdm _ _ => 0b1101
  | .observe => 0b1110
  | .reserved => 0b1111

/-- The ports of an operation: its selector, its operands, and 0 (or absent) on every port it does not read. -/
def encode (i : Instr) : Frame :=
  match i with
  | .reset => { op := selector i }
  | .pllUpdateAll F R OD ACD f p => { op := selector i, F, R, OD, ACD, f, p }
  | .pllUpdateFrac f p en => { op := selector i, f, p, en := BitVec.ofBool en }
  | .pllUpdateFracReg word => { op := selector i, word }
  | .pllCalcFreq => { op := selector i }
  | .pfdGetError count pf => { op := selector i, count, pf }
  | .ctrlCore error fl => { op := selector i, error, firstLoop := BitVec.ofBool fl }
  | .ctrlLut error fl => { op := selector i, error, firstLoop := BitVec.ofBool fl }
  | .ctrlSdm error fl => { op := selector i, error, firstLoop := BitVec.ofBool fl }
  | .lutGetFreq v ctrl => { op := selector i, ctrlValid := BitVec.ofBool v, ctrl }
  | .sdmSetPoint sdmIn => { op := selector i, sdmIn }
  | .sdmTick => { op := selector i }
  | .stepLut count pf => { op := selector i, count, pf }
  | .stepSdm count pf => { op := selector i, count, pf }
  | .observe => { op := selector i }
  | .reserved => { op := selector i }

/-- Why a table word is no selector: it has a bit set that a 4-bit selector does not have (R40). -/
inductive WordRejection where
  | widerThanSelector
  deriving DecidableEq, Repr

/-- The ports whose selector is the table word `w`, every operand port 0 or absent. -/
def frameOfWord (w : Nat) : Except WordRejection Frame :=
  if w < 16 then .ok { op := BitVec.ofNat 4 w } else .error .widerThanSelector

/-- The operation the decoder reads from a row of the opcode table: the table's word is the selector alone, and the
operands, which the table gives no bits, are 0 or absent. The number of bits says nothing more: the selector has one
length (R40). -/
def decodeTableWord (_nbits w : Nat) : Option Instr :=
  match frameOfWord w with
  | .ok fr => some (decode fr)
  | .error _ => none

end Sys2Proof
end

