-- ==== Sys2Proof/Machine/Registers.lean ====
section
/-! DEFINITION. The registers of the block, grouped as the spec groups them (10_state R20 to R25), and the result ports
(30_encoding R41). -/

namespace Sys2Proof.Machine

/-- The tri-state lock status (R23, R43). -/
inductive LockStatus where
  /-- `-1`, unlocked low. -/
  | unlockedLow
  /-- `0`, locked. -/
  | locked
  /-- `1`, unlocked high. -/
  | unlockedHigh
  deriving DecidableEq, Repr, Inhabited

/-- The causes of `ConfigurationError` (60_exceptions R110), in the order of their codes. -/
inductive Cause where
  | pllFRange
  | pllRRange
  | pllOdRange
  | pllVcoRange
  | lutNotMonotonic
  | ctrlGainNegative
  | pfdConfig
  | sdmProfile
  | configParam
  deriving DecidableEq, Repr, Inhabited

/-- `S.pll` (R20). -/
structure PllRegs where
  F : BitVec 13
  R : BitVec 6
  OD : BitVec 3
  ACD : Nat
  f : BitVec 8
  p : BitVec 8
  fracEn : Bool
  outFreq : Hz
  deriving DecidableEq, Repr, Inhabited

/-- `S.pfd` (R21). `lastCount` is a `W`-bit unsigned number; `W` is configuration, so the bound is an invariant. -/
structure PfdRegs where
  lastCount : Nat
  firstLoop : Bool
  deriving DecidableEq, Repr, Inhabited

/-- `S.ctrl` (R22). -/
structure CtrlRegs where
  errorAccum : Rat
  errorAccumAccum : Rat
  totalError : Rat
  iirY : Int
  deriving DecidableEq, Repr, Inhabited

/-- `S.dco` (R23). -/
structure DcoRegs where
  lockStatus : LockStatus
  lockCount : Nat
  lastFreq : Hz
  deriving DecidableEq, Repr, Inhabited

/-- `S.sdm` (R24). -/
structure SdmRegs where
  x1 : Int
  x2 : Int
  x3 : Int
  setpoint : Int
  lastStep : Fin 9
  deriving DecidableEq, Repr, Inhabited

/-- Every register but the two fault registers: what a failed `RESET` leaves unspecified (R100). -/
structure Regs where
  pll : PllRegs
  pfd : PfdRegs
  ctrl : CtrlRegs
  dco : DcoRegs
  sdm : SdmRegs
  deriving DecidableEq, Repr, Inhabited

/-- The result ports, as the last operation drove them (R41); one shape per row of that table. -/
inductive Result where
  /-- No result port is driven (`SDM_SET_POINT`, or no operation yet). -/
  | noPorts
  /-- `freq`, `fault`: `RESET` and the `PLL_` operations. -/
  | freq (freq : Hz) (fault : Bool)
  /-- `error`, `first_loop`: `PFD_GET_ERROR`. -/
  | pfdError (error : Rat) (firstLoop : Bool)
  /-- `total_error`: `CTRL_CORE`. -/
  | totalError (value : Rat)
  /-- `ctrl_valid`, `ctrl`: `CTRL_LUT`. -/
  | ctrl (valid : Bool) (value : Rat)
  /-- `sdm_in`: `CTRL_SDM`. -/
  | sdmIn (value : Int)
  /-- `freq`, `lock`: `LUT_GET_FREQ`, `STEP_LUT`, `STEP_SDM`. -/
  | freqLock (freq : Hz) (lock : BitVec 2)
  /-- `step`, `freq`, `lock`: `SDM_TICK`. -/
  | tick (step : BitVec 4) (freq : Hz) (lock : BitVec 2)
  /-- `lock`, `frac_reg`, `error_accum`, `error_accum_accum`: `OBSERVE`. -/
  | observation (lock : BitVec 2) (fracReg : FracWord) (errorAccum errorAccumAccum : Rat)
  deriving DecidableEq, Repr

end Sys2Proof.Machine
end

