-- ==== Sys2Proof/Config.lean ====
section
/-! DEFINITION. The configuration `cfg` of 00_scope R6, the constants the source fixes, and the free values: opaque
constants, of which nothing can be proved but their type. -/

namespace Sys2Proof

open Sys2Proof.Machine

/-- `VARIANT` (R2, R6). -/
inductive Variant where
  | lut
  | sdm
  deriving DecidableEq, Repr

/-- `ROUND_CTRL` (R77, D21). -/
inductive RoundCtrl where
  | trunc
  | floor
  deriving DecidableEq, Repr

/-- A `PllRegisterSetting` as configuration, or as the argument of `CalcFrequency`: `F`, `R`, `OD` are not yet known to
be in range, so they are naturals (R50). -/
structure PllSetting where
  F : Nat
  R : Nat
  OD : Nat
  ACD : Nat
  f : BitVec 8
  p : BitVec 8
  en : Bool
  deriving DecidableEq, Repr

/-- One row of the profile table (44_sdm_dco R95). `modulationRateHz` is timing only and enters no rule. -/
structure Profile where
  inputHz : Hz
  pll0 : PllSetting
  sdmNominal : Int
  sdmInMin : Int
  sdmInMax : Int
  modulationRateHz : Hz
  deriving DecidableEq, Repr

/-- Which function `SDM_UPDATE` is (R94, D18): the spec's default instantiation, or the unknown modulator number `id`,
of which only the properties P1 to P3 are known. -/
inductive SdmUpdateChoice where
  | standard
  | implementation (id : Nat)
  deriving DecidableEq, Repr

/-- What one modulator update returns. `step : Fin 9` is property P2 (R94). -/
structure SdmUpdateOut where
  step : Fin 9
  x1 : Int
  x2 : Int
  x3 : Int
  deriving DecidableEq, Repr, Inhabited

/-- The configuration (R6). `lutInputHz` and `lutPll0` are `INPUT_HZ` and `PLL0` of the LUT variant; the SDM variant takes
them from the selected profile row (R95). `N` is the length of `lut`. `sdmWindupSpan` is `WINDUP_SPAN` of the SDM variant
(D14). `fracEnBit` is any natural number, as R6 types it; no check of R112 bounds it (log 21). -/
structure Config where
  variant : Variant
  lutInputHz : Hz
  lutPll0 : PllSetting
  lut : List TableWord
  baseLutIndex : Rat
  kp : Rat
  ki : Rat
  kii : Rat := 0
  sdmWindupSpan : Rat
  nominalOutputHz : Rat
  controlRateHz : Rat
  ppmRange : Rat
  countWidth : Nat
  lockCountThreshold : Nat
  profile : Fin 4
  profiles : Vector Profile 4
  sdmUpdate : SdmUpdateChoice := .standard
  roundCtrl : RoundCtrl := .trunc
  fracEnBit : Nat := 31
  deriving DecidableEq, Repr

namespace Config

/-- `VCO_MIN_HZ` (R6). -/
def vcoMinHz : Hz := 360000000

/-- `VCO_MAX_HZ` (R6). -/
def vcoMaxHz : Hz := 1800000000

/-- `IIR_SHIFT` (R6). -/
def iirShift : Nat := 3

/-- `SDM_STEP_MAX` (R6). -/
def sdmStepMax : Nat := 8

/-- `SDM_P` (R6). -/
def sdmP : BitVec 8 := 7

/-- DESIGN CHOICE, log 2. The configuration of `State.reset`: the base configuration of 95_test_vectors T-EXC, with the
numbers of program P3 for the fields only the SDM variant reads and one row repeated for the four profiles. -/
def base : Config where
  variant := .lut
  lutInputHz := 24000000
  lutPll0 := ⟨505, 3, 1, 30, 19, 21, true⟩
  lut := [0x0007, 0x0107, 0x0207, 0x0307, 0x0407, 0x0507, 0x0607, 0x0707]
  baseLutIndex := 4
  kp := 0
  ki := 1 / 4
  sdmWindupSpan := 3200
  nominalOutputHz := 12250000
  controlRateHz := 250
  ppmRange := 500
  countWidth := 16
  lockCountThreshold := 2
  profile := 0
  profiles := .replicate 4
    { inputHz := 24000000, pll0 := ⟨505, 3, 1, 30, 19, 21, true⟩, sdmNominal := 478151, sdmInMin := 60000,
      sdmInMax := 980000, modulationRateHz := 1000000 }

/-- Free value, log 7: the rational on a result port that the spec leaves unspecified, at draw number `draw`. -/
opaque freeRat (draw : Nat) : Rat

/-- Free value, log 7: the lock status on a result port that the spec leaves unspecified. -/
opaque freeLock (draw : Nat) : LockStatus

/-- Free value, log 7: the step on a result port that the spec leaves unspecified. -/
opaque freeStep (draw : Nat) : Fin 9

/-- Free value, log 6: the registers a failed `RESET` leaves unspecified (R100). -/
opaque failedResetRegs (c : Config) : Regs

/-- Free value, log 6: the `freq` result of a failed `RESET` (R100). -/
opaque failedResetFreq (c : Config) : Rat

/-- Free value, log 6: `S.fault_cause` after a `RESET` that succeeds (R29: "otherwise unspecified"). -/
opaque resetFaultCause (c : Config) : Cause

/-- Free value, log 4: the registers before the first `RESET` (R120). -/
opaque powerOnRegs (c : Config) : Regs

/-- Free value, log 4: `S.fault` before the first `RESET` (R120). -/
opaque powerOnFault (c : Config) : Bool

/-- Free value, log 4: `S.fault_cause` before the first `RESET` (R120). -/
opaque powerOnFaultCause (c : Config) : Cause

/-- Free value, log 11: `SDM_UPDATE` of the implementation number `id` (R94): a function of its four arguments (P1, P3)
whose step lies in `[0,8]` (P2, by its type). -/
opaque sdmUpdateImplementation (id : Nat) (x1 x2 x3 v : Int) : SdmUpdateOut

end Config

end Sys2Proof
end

