-- ==== Sys2Proof/Machine/Arith.lean ====
section
/-! DEFINITION. The arithmetic of 00_scope R8 and the packings of 30_encoding R43 to R45. -/

namespace Sys2Proof.Machine

/-- `clamp(v, lo, hi)` on rationals (R8). -/
def clamp (v lo hi : Rat) : Rat := if v < lo then lo else if hi < v then hi else v

/-- `clamp(v, -limit, +limit)`; `none` is the infinite limit, which clamps nothing (R8, R70). -/
def clampWithin (v : Rat) : Option Rat → Rat
  | none => v
  | some limit => clamp v (-limit) limit

/-- `trunc(q)`: toward zero (R8). -/
def trunc (q : Rat) : Int := q.num.tdiv q.den

/-- `ROUND_CTRL` (R77). -/
def roundCtrl : RoundCtrl → Rat → Int
  | .trunc, q => trunc q
  | .floor, q => ⌊q⌋

/-- `a >> k`, the arithmetic right shift: `floor(a / 2^k)` (R8). -/
def shiftRight (a : Int) (k : Nat) : Int := a / 2 ^ k

/-- `a << k = a * 2^k` (R8). -/
def shiftLeft (a : Int) (k : Nat) : Int := a * 2 ^ k

/-- `Pack16` (R44). -/
def pack16 (f p : BitVec 8) : TableWord := (f.setWidth 16 <<< 8) ||| p.setWidth 16

/-- The `f` field of a 16-bit encoding, bits 15:8 (R44). -/
def wordF (w : TableWord) : BitVec 8 := w.extractLsb' 8 8

/-- The `p` field of a 16-bit encoding, bits 7:0 (R44). -/
def wordP (w : TableWord) : BitVec 8 := w.extractLsb' 0 8

/-- `Pack32`, with the enable at bit `enBit = FRAC_EN_BIT` (R45). DESIGN CHOICE, log 21: for `enBit` of 32 or more, where the
word has no such bit, the enable is dropped. -/
def pack32 (enBit : Nat) (f p : BitVec 8) (en : Bool) : FracWord :=
  ((BitVec.ofBool en).setWidth 32 <<< enBit) ||| (f.setWidth 32 <<< 8) ||| p.setWidth 32

/-- The `f` field of a fractional register word, bits 15:8 (R45). -/
def fracWordF (w : FracWord) : BitVec 8 := w.extractLsb' 8 8

/-- The `p` field of a fractional register word, bits 7:0 (R45). -/
def fracWordP (w : FracWord) : BitVec 8 := w.extractLsb' 0 8

/-- The enable of a fractional register word, bit `FRAC_EN_BIT`; the other upper bits are ignored (R45). DESIGN CHOICE, log 21:
for `enBit` of 32 or more, where the word has no such bit, the enable reads as 0. -/
def fracWordEn (enBit : Nat) (w : FracWord) : Bool := w.getLsbD enBit

/-- The lock status as a number (R43). -/
def LockStatus.toInt : LockStatus → Int
  | .unlockedLow => -1
  | .locked => 0
  | .unlockedHigh => 1

/-- The lock status on its 2-bit port, in two's complement (R43). -/
def LockStatus.code (l : LockStatus) : BitVec 2 := BitVec.ofInt 2 l.toInt

/-- The step on its 4-bit port (R41). -/
def stepCode (s : Fin 9) : BitVec 4 := BitVec.ofNat 4 s.val

/-- The code of a cause (60_exceptions R110). -/
def Cause.code : Cause → Nat
  | .pllFRange => 1
  | .pllRRange => 2
  | .pllOdRange => 3
  | .pllVcoRange => 4
  | .lutNotMonotonic => 5
  | .ctrlGainNegative => 6
  | .pfdConfig => 7
  | .sdmProfile => 8
  | .configParam => 9

end Sys2Proof.Machine
end

