-- ==== Sys2Proof/Machine/Frequency.lean ====
section
/-! DEFINITION. The register-to-frequency function of the PLL register model (40_pll_register_model R50). -/

namespace Sys2Proof.Machine

/-- The VCO frequency, of the integer multiplier `F+1` only (R50). -/
def vcoHz (inputHz : Hz) (q : PllSetting) : Hz := inputHz * (q.F + 1) / 2 / (q.R + 1)

/-- The fractional part of the multiplier (R50). -/
def fracPart (q : PllSetting) : Rat := if q.en then ((q.f.toNat : Rat) + 1) / ((q.p.toNat : Rat) + 1) else 0

/-- The output frequency formula (R50), without the checks. -/
def outputHz (inputHz : Hz) (q : PllSetting) : Hz :=
  inputHz * (q.F + 1 + fracPart q) / 2 / (q.R + 1) / (q.OD + 1) / (2 * (q.ACD + 1))

/-- The first of the four checks of `CalcFrequency` that fails, if one does (R50). -/
def settingError (inputHz : Hz) (q : PllSetting) : Option Cause :=
  if ¬ (1 ≤ q.F ∧ q.F ≤ 8191) then some .pllFRange
  else if ¬ q.R ≤ 63 then some .pllRRange
  else if ¬ q.OD ≤ 7 then some .pllOdRange
  else if ¬ (Config.vcoMinHz ≤ vcoHz inputHz q ∧ vcoHz inputHz q ≤ Config.vcoMaxHz) then some .pllVcoRange
  else none

/-- `CalcFrequency` (R50): the output frequency, or the cause it raises. -/
def calcFrequency (inputHz : Hz) (q : PllSetting) : Except Cause Hz :=
  match settingError inputHz q with
  | some cause => .error cause
  | none => .ok (outputHz inputHz q)

/-- The live fields of `S.pll` as the argument of `CalcFrequency`. -/
def PllRegs.setting (r : PllRegs) : PllSetting :=
  { F := r.F.toNat, R := r.R.toNat, OD := r.OD.toNat, ACD := r.ACD, f := r.f, p := r.p, en := r.fracEn }

end Sys2Proof.Machine
end

