-- ==== Sys2Proof/Machine/Constants.lean ====
section
/-! DEFINITION. The constants computed once from the configuration (00_scope R6, 41_pfd R60, 42_controller R70, 44_sdm_dco
R95). -/

namespace Sys2Proof.Machine

/-- The selected profile row (R95). -/
def activeProfile (c : Config) : Profile := c.profiles[c.profile]

/-- `INPUT_HZ`: its own argument for LUT, the profile's for SDM (R6, R95). -/
def inputHz (c : Config) : Hz :=
  match c.variant with
  | .lut => c.lutInputHz
  | .sdm => (activeProfile c).inputHz

/-- `PLL0`: its own argument for LUT, the profile's base fields for SDM (R6, R95). -/
def pll0 (c : Config) : PllSetting :=
  match c.variant with
  | .lut => c.lutPll0
  | .sdm => (activeProfile c).pll0

/-- `SDM_NOMINAL` (R95). -/
def sdmNominal (c : Config) : Int := (activeProfile c).sdmNominal

/-- `SDM_IN_MIN` (R95). -/
def sdmInMin (c : Config) : Int := (activeProfile c).sdmInMin

/-- `SDM_IN_MAX` (R95). -/
def sdmInMax (c : Config) : Int := (activeProfile c).sdmInMax

/-- `N`, the length of the lookup table (R6). -/
def tableSize (c : Config) : Nat := c.lut.length

/-- `WINDUP_SPAN`: the table size for LUT, an open parameter for SDM (R70, D14). -/
def windupSpan (c : Config) : Rat :=
  match c.variant with
  | .lut => (tableSize c : Rat)
  | .sdm => c.sdmWindupSpan

/-- `E`, the expected increment per period (R60). -/
def expectedIncrement (c : Config) : Rat := c.nominalOutputHz / c.controlRateHz

/-- `Ei`, the expected increment truncated (R60). -/
def expectedIncrementInt (c : Config) : Int := ⌊expectedIncrement c⌋

/-- `THRESH`, the allowable error, of the untruncated increment (R60, C4). -/
def errorThreshold (c : Config) : Rat := c.ppmRange / 1000000 * expectedIncrement c

/-- `WINDUP_SPAN / gain`, or no clamp for a zero gain (R70, C7). -/
def windupLimit (c : Config) (gain : Rat) : Option Rat := if gain ≠ 0 then some (windupSpan c / gain) else none

/-- `2^W`, the modulus of the edge count (R62). -/
def countModulus (c : Config) : Nat := 2 ^ c.countWidth

end Sys2Proof.Machine
end

