-- ==== Sys2Proof/Machine/ResetValues.lean ====
section
/-! DEFINITION. The reset values of 10_state R29, and the bounds a free register still has. -/

namespace Sys2Proof.Machine

/-- `S.pll` after reset (R29). The narrow fields hold `PLL0`, which a valid configuration keeps in range. -/
def resetPll (c : Config) : PllRegs where
  F := BitVec.ofNat 13 (pll0 c).F
  R := BitVec.ofNat 6 (pll0 c).R
  OD := BitVec.ofNat 3 (pll0 c).OD
  ACD := (pll0 c).ACD
  f := (pll0 c).f
  p := (pll0 c).p
  fracEn := (pll0 c).en
  outFreq := outputHz (inputHz c) (pll0 c)

/-- Every register after a reset under a valid configuration (R29). -/
def resetRegs (c : Config) : Regs where
  pll := resetPll c
  pfd := { lastCount := 0, firstLoop := true }
  ctrl := { errorAccum := 0, errorAccumAccum := 0, totalError := 0, iirY := 0 }
  dco := { lockStatus := .unlockedLow, lockCount := c.lockCountThreshold, lastFreq := (resetPll c).outFreq }
  sdm := { x1 := 0, x2 := 0, x3 := 0, setpoint := sdmNominal c, lastStep := 0 }

/-- Free registers kept within the widths the spec gives them: a `W`-bit count (R21), a lock counter in
`[0, LOCK_COUNT_THRESHOLD]` (R23); the other bounds are the fields' types. -/
def withinWidths (c : Config) (r : Regs) : Regs :=
  { r with
    pfd := { r.pfd with lastCount := r.pfd.lastCount % countModulus c }
    dco := { r.dco with lockCount := r.dco.lockCount % (c.lockCountThreshold + 1) } }

end Sys2Proof.Machine
end

