-- ==== Sys2Proof/Machine/State.lean ====
section
/-! DEFINITION. The state of the machine (10_state R20 to R25), why a step can stop, and the state after reset. -/

namespace Sys2Proof.Machine

/-- The registers of the spec, the configuration they run under, and the model's own bookkeeping. -/
structure State where
  /-- The configuration (R6): constant, no operation writes it (log 1). -/
  cfg : Config
  pll : PllRegs
  pfd : PfdRegs
  ctrl : CtrlRegs
  dco : DcoRegs
  sdm : SdmRegs
  /-- `S.fault` (R25). -/
  fault : Bool
  /-- `S.fault_cause` (R25). -/
  faultCause : Cause
  /-- A `RESET` has been performed (R46 (c), R114; log 4). -/
  started : Bool
  /-- A fault was ever raised: the sticky record of R115 (log 8). -/
  faultSeen : Bool
  /-- How many free values result ports have shown (log 7). -/
  draws : Nat
  /-- The result ports, as the last operation drove them (R41; log 9). -/
  result : Result
  /-- The operations the host has still to issue, in their total order (R28, R36; log 3). -/
  input : List Frame
  deriving DecidableEq, Repr

/-- Why the machine stops with a fault. -/
inductive Fault where
  /-- `LutRead` outside `[0, N-1]`, which R31 leaves undefined. Raised by the table read of `LUT_GET_FREQ` and `STEP_LUT`,
  only in states with an empty table, which no `RESET` accepts. Safe: the model stops. -/
  | lutIndexOutOfRange
  deriving DecidableEq, Repr

/-- Why an operation has no step: the refusals of 30_encoding R46 and 60_exceptions R114. -/
inductive Refusal where
  /-- An instruction without a meaning in this model. Raised by no arm. Safe: the model stops. -/
  | notModelled (mnemonic : String)
  /-- The reserved selector `1111` (R46 (a)). Raised by `reserved`. Safe: the model stops. -/
  | reservedSelector
  /-- An operation other than `RESET` before the first `RESET` (R46 (c), R114, R120). Safe: the model stops. -/
  | beforeFirstReset
  /-- An operation other than `RESET` while `S.fault = 1` (R46 (c), R114). Safe: the model stops. -/
  | faultLatched
  /-- An operation of the other variant (R46 (b)). Safe: the model stops. -/
  | wrongVariant
  /-- `pf ≤ 0` on format CN (R46 (d), R63). Safe: the model stops. -/
  | periodFractionNotPositive
  /-- The operation list is exhausted: the run has ended (R124). Raised by `step`. Safe: the model stops. -/
  | runEnded
  deriving DecidableEq, Repr

/-- The registers of a state. -/
def State.regs (s : State) : Regs := { pll := s.pll, pfd := s.pfd, ctrl := s.ctrl, dco := s.dco, sdm := s.sdm }

/-- A block that has been reset under `c`, which is to be valid (R29, R100). DESIGN CHOICE, log 5: `faultCause`, which R29
leaves unspecified when `S.fault = 0`, holds the first cause of R110. -/
def State.afterReset (c : Config) : State where
  cfg := c
  pll := (resetRegs c).pll
  pfd := (resetRegs c).pfd
  ctrl := (resetRegs c).ctrl
  dco := (resetRegs c).dco
  sdm := (resetRegs c).sdm
  fault := false
  faultCause := .pllFRange
  started := true
  faultSeen := false
  draws := 0
  result := .freq (resetRegs c).pll.outFreq false
  input := []

/-- The machine right after reset, under the base configuration (log 2). -/
def State.reset : State := State.afterReset Config.base

/-- A block before its first `RESET` (R120): every register unspecified, a free value (log 4). -/
def State.powerOn (c : Config) (ops : List Frame) : State where
  cfg := c
  pll := (withinWidths c (Config.powerOnRegs c)).pll
  pfd := (withinWidths c (Config.powerOnRegs c)).pfd
  ctrl := (withinWidths c (Config.powerOnRegs c)).ctrl
  dco := (withinWidths c (Config.powerOnRegs c)).dco
  sdm := (withinWidths c (Config.powerOnRegs c)).sdm
  fault := Config.powerOnFault c
  faultCause := Config.powerOnFaultCause c
  started := false
  faultSeen := false
  draws := 0
  result := .noPorts
  input := ops

end Sys2Proof.Machine
end

