-- ==== Sys2Proof/Machine/Validation.lean ====
section
/-! DEFINITION. `ConfigValid(cfg)`: the checks of 60_exceptions R112, in its order. -/

namespace Sys2Proof.Machine

/-- Check 1, `CONFIG_PARAM` (R112). That every entry is a 16-bit word holds by the table's type. -/
def paramError (c : Config) : Option Cause :=
  if 0 < inputHz c ∧ 0 < windupSpan c ∧ (c.variant = .lut → 1 ≤ tableSize c) then none else some .configParam

/-- Check 4, `CTRL_GAIN_NEGATIVE` (R112, R79). -/
def gainError (c : Config) : Option Cause := if 0 ≤ c.ki ∧ 0 ≤ c.kii then none else some .ctrlGainNegative

/-- Check 5, `PFD_CONFIG`: the conditions of 41_pfd R66. -/
def pfdError (c : Config) : Option Cause :=
  if 0 < c.nominalOutputHz ∧ 0 < c.controlRateHz ∧ 0 ≤ c.ppmRange ∧ 1 ≤ c.countWidth
      ∧ expectedIncrement c + errorThreshold c < (countModulus c : Rat)
  then none else some .pfdConfig

/-- Check 6, `SDM_PROFILE`, of the SDM variant only (R112, R95). -/
def profileError (c : Config) : Option Cause :=
  if c.variant = .sdm → (sdmInMin c ≤ sdmNominal c ∧ sdmNominal c ≤ sdmInMax c) then none else some .sdmProfile

/-- The frequency of a table entry, with the integer fields of `PLL0` and the enable forced (R112 check 7, R84). -/
def entryHz (c : Config) (w : TableWord) : Hz :=
  outputHz (inputHz c) { pll0 c with f := wordF w, p := wordP w, en := true }

/-- Adjacent entries have non-decreasing frequencies (R112 check 7, R31). -/
def tableMonotonic (c : Config) : List TableWord → Bool
  | a :: b :: rest => entryHz c a ≤ entryHz c b && tableMonotonic c (b :: rest)
  | _ => true

/-- Check 7, `LUT_NOT_MONOTONIC`, of the LUT variant only (R112). -/
def tableError (c : Config) : Option Cause :=
  if c.variant = .lut → tableMonotonic c c.lut then none else some .lutNotMonotonic

/-- The first check of R112 that fails, if one does. -/
def configError (c : Config) : Option Cause :=
  paramError c <|> settingError (inputHz c) (pll0 c) <|> gainError c <|> pfdError c <|> profileError c <|> tableError c

/-- `ConfigValid(cfg)` (R112). -/
abbrev ConfigValid (c : Config) : Prop := configError c = none

end Sys2Proof.Machine
end

