-- ==== Sys2Proof/Machine/Ops.lean ====
section
/-! DEFINITION. The operations every meaning shares: writing a register group, driving the result ports, drawing a free
value, taking `ConfigurationError`, the conditions under which an operation has a step, and the table read. There is no
return from an exception (60_exceptions R115). -/

namespace Sys2Proof.Machine

def State.setPll (s : State) (r : PllRegs) : State := { s with pll := r }

def State.setPfd (s : State) (r : PfdRegs) : State := { s with pfd := r }

def State.setCtrl (s : State) (r : CtrlRegs) : State := { s with ctrl := r }

def State.setDco (s : State) (r : DcoRegs) : State := { s with dco := r }

def State.setSdm (s : State) (r : SdmRegs) : State := { s with sdm := r }

/-- Every register but the fault registers (R29, R100). -/
def State.setRegs (s : State) (r : Regs) : State :=
  { s with pll := r.pll, pfd := r.pfd, ctrl := r.ctrl, dco := r.dco, sdm := r.sdm }

/-- Drive the result ports (R41). -/
def State.present (s : State) (r : Result) : State := { s with result := r }

/-- One free value has been shown on a result port (log 7). -/
def State.drawn (s : State) : State := { s with draws := s.draws + 1 }

/-- `S.fault <- 1; S.fault_cause <- cause` (R111 (2)), and the sticky record of R115. -/
def State.latchFault (s : State) (cause : Cause) : State :=
  { s with fault := true, faultCause := cause, faultSeen := true }

/-- Take `ConfigurationError(cause)` (R111): `s` is the state before the operation, so every write of the operation is
discarded; the fault registers are written; the results, of which `fault` alone is specified, are `unspecified`. -/
def State.raiseConfigurationError (s : State) (cause : Cause) (unspecified : Result) : State :=
  ((s.latchFault cause).drawn).present unspecified

/-- `freq` unspecified, `fault = 1` (R111 (3)). -/
def unspecifiedFreq (s : State) : Result := .freq (Config.freeRat s.draws) true

/-- `freq`, `lock` unspecified (R111 (3)). -/
def unspecifiedFreqLock (s : State) : Result := .freqLock (Config.freeRat s.draws) (Config.freeLock s.draws).code

/-- `step`, `freq`, `lock` unspecified (R111 (3)). -/
def unspecifiedTick (s : State) : Result :=
  .tick (stepCode (Config.freeStep s.draws)) (Config.freeRat s.draws) (Config.freeLock s.draws).code

/-- Why an operation does not reach its results: it raises, or the model stops. -/
inductive Trap where
  /-- `raise ConfigurationError(cause)` (R111). -/
  | raises (cause : Cause)
  /-- The model's fault. -/
  | stops (fault : Fault)
  deriving DecidableEq, Repr

/-- End an operation begun in `s`: the state it computed, or the exception it raised, or the fault. -/
def commit (s : State) (unspecified : Result) : Except Trap State → Host.Outcome State Fault Refusal
  | .ok t => .next t
  | .error (.raises cause) => .next (s.raiseConfigurationError cause unspecified)
  | .error (.stops fault) => .fault fault

/-- An operation other than `RESET` has a step only after a `RESET` and without a latched fault (R46 (c), R114). -/
def whenRunning (s : State) (k : Host.Outcome State Fault Refusal) : Host.Outcome State Fault Refusal :=
  if ¬ s.started then .refused .beforeFirstReset
  else if s.fault then .refused .faultLatched
  else k

/-- As `whenRunning`, for an operation of one variant only (R46 (b)). -/
def whenVariant (v : Variant) (s : State) (k : Host.Outcome State Fault Refusal) : Host.Outcome State Fault Refusal :=
  whenRunning s (if s.cfg.variant = v then k else .refused .wrongVariant)

/-- `LutRead(i)` (20_memory R31): defined for `0 ≤ i ≤ N-1` only. -/
def lutRead (c : Config) (i : Int) : Option TableWord := if i < 0 then none else c.lut[i.toNat]?

/-- The fractional register word the block presents (R30 (b), R45). -/
def State.fracReg (s : State) : FracWord := pack32 s.cfg.fracEnBit s.pll.f s.pll.p s.pll.fracEn

end Sys2Proof.Machine
end

