-- ==== Sys2Proof/Machine/Operands.lean ====
section
/-! DEFINITION. The operand forms of 30_encoding R41 and R42 that need work before use: the edge count, the period
fraction, the control value of the LUT DCO, the set-point. -/

namespace Sys2Proof.Machine

/-- The value on the `W`-bit `count` port: its low `W` bits (R42 (a); log 12). -/
def countPort (c : Config) (count : Nat) : Nat := count % countModulus c

/-- `pf`, where absent means 1 (R41). -/
def periodFraction (pf : Option Rat) : Rat := pf.getD 1

/-- `pf ≤ 0` is refused (R46 (d), R63). -/
def whenPositive (pf : Option Rat) (k : Host.Outcome State Fault Refusal) : Host.Outcome State Fault Refusal :=
  if 0 < periodFraction pf then k else .refused .periodFractionNotPositive

/-- Where a sample lies against its range: the operand of `LockUpdate` (R80). -/
inductive Sample where
  | low
  | high
  | inRange
  deriving DecidableEq, Repr

/-- The class of a control value against `[0, N-1]`, before any rounding (R81, R82). -/
def lutSample (c : Config) (ctrl : Rat) : Sample :=
  if ctrl < 0 then .low else if (tableSize c : Rat) - 1 < ctrl then .high else .inRange

/-- The control value clamped to `[0, N-1]` (R81, R82). -/
def lutClamped (c : Config) (ctrl : Rat) : Rat :=
  match lutSample c ctrl with
  | .low => 0
  | .high => (tableSize c : Rat) - 1
  | .inRange => ctrl

/-- The table index: the floor of the clamped control value (R82). -/
def lutIndex (c : Config) (ctrl : Rat) : Int := ⌊lutClamped c ctrl⌋

/-- The class of a set-point against `[SDM_IN_MIN, SDM_IN_MAX]` (R91). -/
def sdmSample (c : Config) (v : Int) : Sample :=
  if sdmInMax c < v then .high else if v < sdmInMin c then .low else .inRange

/-- The modulator input: the set-point clamped (R91). -/
def sdmClamped (c : Config) (v : Int) : Int :=
  match sdmSample c v with
  | .high => sdmInMax c
  | .low => sdmInMin c
  | .inRange => v

end Sys2Proof.Machine
end

