-- ==== Sys2Proof/Machine/Flags.lean ====
section
/-! DEFINITION. How the flags of 10_state R26 are computed: `first_loop` (41_pfd R64) and the lock status with its
hysteresis counter (43_lut_dco R80). -/

namespace Sys2Proof.Machine

/-- `first_loop`: the error exceeds the threshold, strictly (R64). -/
def outOfRange (c : Config) (error : Rat) : Bool := errorThreshold c < |error|

/-- `LockUpdate(sat)` on the lock registers (R80): the counter is tested after the decrement. -/
def lockUpdate (c : Config) (r : DcoRegs) : Sample → DcoRegs
  | .low => { r with lockStatus := .unlockedLow, lockCount := c.lockCountThreshold }
  | .high => { r with lockStatus := .unlockedHigh, lockCount := c.lockCountThreshold }
  | .inRange =>
    { r with
      lockStatus := if r.lockCount - 1 = 0 then .locked else r.lockStatus
      lockCount := r.lockCount - 1 }

end Sys2Proof.Machine
end

