-- ==== Sys2Proof/Machine/Controller.lean ====
section
/-! DEFINITION. The PI(I) controller (42_controller R70 to R79). -/

namespace Sys2Proof.Machine

/-- The error the core uses: 0 on a `first_loop` call (R71, R73). -/
def usedError (error : Rat) (firstLoop : Bool) : Rat := if firstLoop then 0 else error

/-- The accumulators of `CTRL_CORE` (R71, R72): a `first_loop` call zeroes both first; the double integral adds the clamped
single integral; each clamp has its own limit. -/
def coreAccum (c : Config) (r : CtrlRegs) (error : Rat) (firstLoop : Bool) : Rat :=
  clampWithin ((if firstLoop then 0 else r.errorAccum) + usedError error firstLoop) (windupLimit c c.ki)

def coreAccumAccum (c : Config) (r : CtrlRegs) (error : Rat) (firstLoop : Bool) : Rat :=
  clampWithin ((if firstLoop then 0 else r.errorAccumAccum) + coreAccum c r error firstLoop) (windupLimit c c.kii)

/-- `total_error` of `CTRL_CORE` (R71). -/
def coreTotal (c : Config) (r : CtrlRegs) (error : Rat) (firstLoop : Bool) : Rat :=
  c.kp * usedError error firstLoop + c.ki * coreAccum c r error firstLoop + c.kii * coreAccumAccum c r error firstLoop

/-- The writes of `CTRL_CORE` (R71). -/
def ctrlCore (error : Rat) (firstLoop : Bool) (s : State) : State :=
  s.setCtrl { s.ctrl with
    errorAccum := coreAccum s.cfg s.ctrl error firstLoop
    errorAccumAccum := coreAccumAccum s.cfg s.ctrl error firstLoop
    totalError := coreTotal s.cfg s.ctrl error firstLoop }

/-- The writes of `CTRL_LUT` (R74): the core's; the value beside a null result is a free value (log 7). -/
def ctrlLut (error : Rat) (firstLoop : Bool) (s : State) : State :=
  if firstLoop then (ctrlCore error firstLoop s).drawn else ctrlCore error firstLoop s

/-- The `ctrl` result of `CTRL_LUT` (R74): `BASE_LUT_INDEX - total_error`; unspecified beside the null sentinel. -/
def ctrlLutValue (error : Rat) (firstLoop : Bool) (s : State) : Rat :=
  if firstLoop then Config.freeRat s.draws
  else s.cfg.baseLutIndex - (ctrlCore error firstLoop s).ctrl.totalError

/-- `y += (x - y) >> IIR_SHIFT` (R75, R77). -/
def filterStep (y x : Int) : Int := y + shiftRight (x - y) Config.iirShift

/-- The writes of `CTRL_SDM` (R75): the core on the negated error, then the filter, which `first_loop` does not clear. -/
def ctrlSdm (error : Rat) (firstLoop : Bool) (s : State) : State :=
  let t := ctrlCore (-error) firstLoop s
  t.setCtrl { t.ctrl with iirY := filterStep t.ctrl.iirY (roundCtrl t.cfg.roundCtrl t.ctrl.totalError) }

/-- The `sdm_in` result of `CTRL_SDM` (R75), read after its writes. -/
def ctrlSdmValue (s : State) : Int := sdmNominal s.cfg + s.ctrl.iirY

/-- `CTRL_CORE` (R71). -/
def execCtrlCore (error : Rat) (firstLoop : Bool) (s : State) : Host.Outcome State Fault Refusal :=
  whenRunning s <| .next <|
    (ctrlCore error firstLoop s).present (.totalError (ctrlCore error firstLoop s).ctrl.totalError)

/-- `CTRL_LUT` (R74). -/
def execCtrlLut (error : Rat) (firstLoop : Bool) (s : State) : Host.Outcome State Fault Refusal :=
  whenVariant .lut s <| .next <|
    (ctrlLut error firstLoop s).present (.ctrl (!firstLoop) (ctrlLutValue error firstLoop s))

/-- `CTRL_SDM` (R75). -/
def execCtrlSdm (error : Rat) (firstLoop : Bool) (s : State) : Host.Outcome State Fault Refusal :=
  whenVariant .sdm s <| .next <|
    (ctrlSdm error firstLoop s).present (.sdmIn (ctrlSdmValue (ctrlSdm error firstLoop s)))

end Sys2Proof.Machine
end

