-- ==== Sys2Proof/Machine/Pfd.lean ====
section
/-! DEFINITION. The phase/frequency detector (41_pfd R60 to R65). -/

namespace Sys2Proof.Machine

/-- `inc_raw`: the increment modulo `2^W`, unsigned (R62). -/
def rawIncrement (c : Config) (lastCount count : Nat) : Nat :=
  (((count : Int) - lastCount) % (countModulus c : Int)).toNat

/-- `error = inc_raw / pf - Ei` (R61, R63). -/
def pfdErrorValue (c : Config) (lastCount count : Nat) (pf : Rat) : Rat :=
  (rawIncrement c lastCount count : Rat) / pf - expectedIncrementInt c

/-- The error of `PFD_GET_ERROR` in a state (R61). -/
def pfdSampleError (count : Nat) (pf : Option Rat) (s : State) : Rat :=
  pfdErrorValue s.cfg s.pfd.lastCount (countPort s.cfg count) (periodFraction pf)

/-- The writes of `PFD_GET_ERROR` (R61): `last_count` unconditionally (R65), `first_loop` afresh (R64). -/
def pfdSample (count : Nat) (pf : Option Rat) (s : State) : State :=
  s.setPfd { lastCount := countPort s.cfg count, firstLoop := outOfRange s.cfg (pfdSampleError count pf s) }

/-- `PFD_GET_ERROR` (R61). -/
def execPfdGetError (count : Nat) (pf : Option Rat) (s : State) : Host.Outcome State Fault Refusal :=
  whenRunning s <| whenPositive pf <| .next <|
    (pfdSample count pf s).present (.pfdError (pfdSampleError count pf s) (pfdSample count pf s).pfd.firstLoop)

end Sys2Proof.Machine
end

