-- ==== Sys2Proof/Machine/Pll.lean ====
section
/-! DEFINITION. The PLL register model's operations (40_pll_register_model R51 to R54). -/

namespace Sys2Proof.Machine

/-- Write `S.pll`'s fields and recompute, or raise (R50). -/
def pllWrite (r : PllRegs) (s : State) : Except Trap State :=
  match calcFrequency (inputHz s.cfg) r.setting with
  | .error cause => .error (.raises cause)
  | .ok v => .ok (s.setPll { r with outFreq := v })

/-- `PLL_UPDATE_FRAC(f, p, en)` as a part of an operation (R53). -/
def pllUpdateFrac (f p : BitVec 8) (en : Bool) (s : State) : Except Trap State :=
  pllWrite { s.pll with f, p, fracEn := en } s

/-- The results of the `PLL_` operations: the frequency just computed, no fault (R51 to R54). -/
def presentFreq (s : State) : State := s.present (.freq s.pll.outFreq false)

/-- `PLL_UPDATE_ALL` (R52). -/
def execPllUpdateAll (F : BitVec 13) (R : BitVec 6) (OD : BitVec 3) (ACD : Nat) (f p : BitVec 8) (s : State) :
    Host.Outcome State Fault Refusal :=
  whenRunning s <| commit s (unspecifiedFreq s) <| presentFreq <$> pllWrite { s.pll with F, R, OD, ACD, f, p } s

/-- `PLL_UPDATE_FRAC` (R53). -/
def execPllUpdateFrac (f p : BitVec 8) (en : Bool) (s : State) : Host.Outcome State Fault Refusal :=
  whenRunning s <| commit s (unspecifiedFreq s) <| presentFreq <$> pllUpdateFrac f p en s

/-- `PLL_UPDATE_FRAC_REG` (R54): the fields of the word, then as `PLL_UPDATE_FRAC`. -/
def execPllUpdateFracReg (word : FracWord) (s : State) : Host.Outcome State Fault Refusal :=
  whenRunning s <| commit s (unspecifiedFreq s) <|
    presentFreq <$> pllUpdateFrac (fracWordF word) (fracWordP word) (fracWordEn s.cfg.fracEnBit word) s

/-- `PLL_CALC_FREQ` (R51). -/
def execPllCalcFreq (s : State) : Host.Outcome State Fault Refusal :=
  whenRunning s <| commit s (unspecifiedFreq s) <| presentFreq <$> pllWrite s.pll s

end Sys2Proof.Machine
end

