-- ==== Sys2Proof/Machine/LutDco.lean ====
section
/-! DEFINITION. The lookup-table DCO (43_lut_dco R80 to R84). -/

namespace Sys2Proof.Machine

/-- Copy the frequency just computed into the DCO's cache (R81, R93). -/
def cacheFreq (s : State) : State := s.setDco { s.dco with lastFreq := s.pll.outFreq }

/-- The writes of `LUT_GET_FREQ` (R81): none for the null operand (R83); else the lock update, the table read, the
fractional update with the enable forced (R84), and the cache. -/
def lutGetFreq (ctrlValid : Bool) (ctrl : Rat) (s : State) : Except Trap State :=
  if ctrlValid then
    let t := s.setDco (lockUpdate s.cfg s.dco (lutSample s.cfg ctrl))
    match lutRead s.cfg (lutIndex s.cfg ctrl) with
    | none => .error (.stops .lutIndexOutOfRange)
    | some w => cacheFreq <$> pllUpdateFrac (wordF w) (wordP w) true t
  else .ok s

/-- The results `freq`, `lock` of the DCO and of a control period (R81, R101, R102). -/
def presentFreqLock (s : State) : State := s.present (.freqLock s.dco.lastFreq s.dco.lockStatus.code)

/-- `LUT_GET_FREQ` (R81). -/
def execLutGetFreq (ctrlValid : Bool) (ctrl : Rat) (s : State) : Host.Outcome State Fault Refusal :=
  whenVariant .lut s <| commit s (unspecifiedFreqLock s) <| presentFreqLock <$> lutGetFreq ctrlValid ctrl s

end Sys2Proof.Machine
end

