-- ==== Sys2Proof/Machine/SdmDco.lean ====
section
/-! DEFINITION. The sigma-delta DCO (44_sdm_dco R90 to R95). -/

namespace Sys2Proof.Machine

/-- The default `SDM_UPDATE` of R94. PRESUMED, log 11: the spec marks the equations as general knowledge. All three
updates read the registers from before the tick. -/
def sdmUpdateStandard (x1 x2 x3 v : Int) : SdmUpdateOut :=
  let raw := shiftRight (shiftLeft x3 4 + shiftLeft x3 1) 13
  let step : Nat := if raw < 0 then 0 else if (Config.sdmStepMax : Int) < raw then Config.sdmStepMax else raw.toNat
  { step := Fin.ofNat 9 step
    x1 := x1 + v - shiftLeft step 17
    x2 := x2 + shiftRight x1 5 - shiftLeft step 14
    x3 := x3 + shiftRight x2 5 - shiftLeft step 9 - shiftLeft step 8 }

/-- `SDM_UPDATE` of the configuration (R94, D18; log 11). -/
def sdmUpdate (c : Config) (x1 x2 x3 v : Int) : SdmUpdateOut :=
  match c.sdmUpdate with
  | .standard => sdmUpdateStandard x1 x2 x3 v
  | .implementation id => Config.sdmUpdateImplementation id x1 x2 x3 v

/-- The `f` field of `StepToFrac` (R92). -/
def stepF (step : Fin 9) : BitVec 8 := BitVec.ofNat 8 (step.val - 1)

/-- The enable of `StepToFrac` (R92). -/
def stepEn (step : Fin 9) : Bool := step.val != 0

/-- What the modulator returns at a tick in a state, from the clamped set-point (R91, R93). -/
def tickUpdate (s : State) : SdmUpdateOut :=
  sdmUpdate s.cfg s.sdm.x1 s.sdm.x2 s.sdm.x3 (sdmClamped s.cfg s.sdm.setpoint)

/-- The writes of `SDM_TICK` (R93). -/
def sdmTick (s : State) : Except Trap State :=
  let out := tickUpdate s
  let t := s.setDco (lockUpdate s.cfg s.dco (sdmSample s.cfg s.sdm.setpoint))
  let u := t.setSdm { t.sdm with x1 := out.x1, x2 := out.x2, x3 := out.x3, lastStep := out.step }
  cacheFreq <$> pllUpdateFrac (stepF out.step) Config.sdmP (stepEn out.step) u

/-- The writes of `SDM_SET_POINT` (R90): stored as given, not clamped. -/
def sdmSetPoint (sdmIn : Int) (s : State) : State := s.setSdm { s.sdm with setpoint := sdmIn }

/-- The results of `SDM_TICK` (R93). -/
def presentTick (s : State) : State :=
  s.present (.tick (stepCode s.sdm.lastStep) s.dco.lastFreq s.dco.lockStatus.code)

/-- `SDM_SET_POINT` (R90). -/
def execSdmSetPoint (sdmIn : Int) (s : State) : Host.Outcome State Fault Refusal :=
  whenVariant .sdm s <| .next <| (sdmSetPoint sdmIn s).present .noPorts

/-- `SDM_TICK` (R93). -/
def execSdmTick (s : State) : Host.Outcome State Fault Refusal :=
  whenVariant .sdm s <| commit s (unspecifiedTick s) <| presentTick <$> sdmTick s

end Sys2Proof.Machine
end

