-- ==== Sys2Proof/Machine/System.lean ====
section
/-! DEFINITION. The orchestrator and the system operations (45_orchestrator_system R100 to R103), and the reserved
selector (30_encoding R46). -/

namespace Sys2Proof.Machine

/-- `RESET` (R100). Under an invalid configuration the fault is latched and every other register is a free value, a
function of the configuration because `RESET` reads no state (log 6). -/
def execReset (s : State) : Host.Outcome State Fault Refusal :=
  match configError s.cfg with
  | none =>
    .next { s.setRegs (resetRegs s.cfg) with
      fault := false, faultCause := Config.resetFaultCause s.cfg, started := true
      result := .freq (resetRegs s.cfg).pll.outFreq false }
  | some cause =>
    .next { (s.setRegs (withinWidths s.cfg (Config.failedResetRegs s.cfg))).latchFault cause with
      started := true
      result := .freq (Config.failedResetFreq s.cfg) true }

/-- The writes of `STEP_LUT` (R101): the detector, the controller, the DCO, each seeing the writes of the one before. -/
def stepLut (count : Nat) (pf : Option Rat) (s : State) : Except Trap State :=
  let error := pfdSampleError count pf s
  let t := pfdSample count pf s
  let firstLoop := t.pfd.firstLoop
  lutGetFreq (!firstLoop) (ctrlLutValue error firstLoop t) (ctrlLut error firstLoop t)

/-- `STEP_LUT` (R101). -/
def execStepLut (count : Nat) (pf : Option Rat) (s : State) : Host.Outcome State Fault Refusal :=
  whenVariant .lut s <| whenPositive pf <| commit s (unspecifiedFreqLock s) <| presentFreqLock <$> stepLut count pf s

/-- The writes of `STEP_SDM` (R102): the detector, the controller, the set-point. -/
def stepSdm (count : Nat) (pf : Option Rat) (s : State) : State :=
  let error := pfdSampleError count pf s
  let t := pfdSample count pf s
  let u := ctrlSdm error t.pfd.firstLoop t
  sdmSetPoint (ctrlSdmValue u) u

/-- `STEP_SDM` (R102): the results are those the latest tick left. -/
def execStepSdm (count : Nat) (pf : Option Rat) (s : State) : Host.Outcome State Fault Refusal :=
  whenVariant .sdm s <| whenPositive pf <| .next <| presentFreqLock (stepSdm count pf s)

/-- The tuple of the equivalence contract (R103). -/
def observation (s : State) : Result :=
  .observation s.dco.lockStatus.code s.fracReg s.ctrl.errorAccum s.ctrl.errorAccumAccum

/-- `OBSERVE` (R103). -/
def execObserve (s : State) : Host.Outcome State Fault Refusal := whenRunning s <| .next <| s.present (observation s)

/-- The reserved selector: "presenting it is refused: the block has no step" (R46 (a)). -/
def execReserved (_s : State) : Host.Outcome State Fault Refusal := .refused .reservedSelector

end Sys2Proof.Machine
end

