-- ==== Sys2Proof/Machine/Dispatch.lean ====
section
/-! DEFINITION. One arm per operation. -/

namespace Sys2Proof.Machine

def exec (i : Instr) (s : State) : Host.Outcome State Fault Refusal :=
  match i with
  | .reset => Sys2Proof.Machine.execReset s
  | .pllUpdateAll F R OD ACD f p => Sys2Proof.Machine.execPllUpdateAll F R OD ACD f p s
  | .pllUpdateFrac f p en => Sys2Proof.Machine.execPllUpdateFrac f p en s
  | .pllUpdateFracReg word => Sys2Proof.Machine.execPllUpdateFracReg word s
  | .pllCalcFreq => Sys2Proof.Machine.execPllCalcFreq s
  | .pfdGetError count pf => Sys2Proof.Machine.execPfdGetError count pf s
  | .ctrlCore error firstLoop => Sys2Proof.Machine.execCtrlCore error firstLoop s
  | .ctrlLut error firstLoop => Sys2Proof.Machine.execCtrlLut error firstLoop s
  | .ctrlSdm error firstLoop => Sys2Proof.Machine.execCtrlSdm error firstLoop s
  | .lutGetFreq ctrlValid ctrl => Sys2Proof.Machine.execLutGetFreq ctrlValid ctrl s
  | .sdmSetPoint sdmIn => Sys2Proof.Machine.execSdmSetPoint sdmIn s
  | .sdmTick => Sys2Proof.Machine.execSdmTick s
  | .stepLut count pf => Sys2Proof.Machine.execStepLut count pf s
  | .stepSdm count pf => Sys2Proof.Machine.execStepSdm count pf s
  | .observe => Sys2Proof.Machine.execObserve s
  | .reserved => Sys2Proof.Machine.execReserved s

end Sys2Proof.Machine
end

