-- ==== Sys2Proof/Machine/Input.lean ====
section
/-! DEFINITION. How an operation comes from the host's list (10_state R28), and how a table word is put at its head. -/

namespace Sys2Proof.Machine

/-- The operation at the head of the host's list, and the rest of the list (R28, R36 (a)). -/
def nextOperation (s : State) : Option (Instr × State) :=
  match s.input with
  | [] => none
  | fr :: rest => some (decode fr, { s with input := rest })

/-- The variant an operation needs, if it is an operation of one variant only (R46 (b)). -/
def neededVariant : Instr → Option Variant
  | .ctrlLut _ _ => some .lut
  | .lutGetFreq _ _ => some .lut
  | .stepLut _ _ => some .lut
  | .ctrlSdm _ _ => some .sdm
  | .sdmSetPoint _ => some .sdm
  | .sdmTick => some .sdm
  | .stepSdm _ _ => some .sdm
  | .reset => none
  | .pllUpdateAll _ _ _ _ _ _ => none
  | .pllUpdateFrac _ _ _ => none
  | .pllUpdateFracReg _ => none
  | .pllCalcFreq => none
  | .pfdGetError _ _ => none
  | .ctrlCore _ _ => none
  | .observe => none
  | .reserved => none

/-- A block whose host presents `fr` next, in the variant that operation needs (log 13). -/
def presentNext (s : State) (fr : Frame) : State :=
  { s with
    input := fr :: s.input
    cfg := { s.cfg with variant := (neededVariant (decode fr)).getD s.cfg.variant } }

end Sys2Proof.Machine
end

