-- ==== Sys2Proof/Machine/Step.lean ====
section
/-! DEFINITION. One step: the next operation of the host's list. -/

namespace Sys2Proof.Machine

/-- One step of a run (70_reset_and_hazards R124): the next operation of the list is decoded and executed; an exhausted list
ends the run. -/
def step (s : State) : Host.Outcome State Fault Refusal :=
  match nextOperation s with
  | none => .refused .runEnded
  | some (i, t) => exec i t

/-- `s` with the operation of the table word `w` at the head of the host's list, every operand port 0 or absent, and the
variant that operation needs (log 13). A word that is no selector presents nothing. -/
def State.withFetchWord (s : State) (_nbits w : Nat) : State :=
  match frameOfWord w with
  | .ok fr => presentNext s fr
  | .error _ => s

end Sys2Proof.Machine
end

