-- ==== Sys2Proof/Safety.lean ====
section
/-! DEFINITION. What claims call a running block, a legal state, a run and its observation. -/

namespace Sys2Proof.Machine

/-- The block has been reset and no fault is latched: the states in which every operation has a step (R114). -/
abbrev State.Running (s : State) : Prop := s.started = true ∧ s.fault = false

/-- `S.pll` is legal and `out_freq` is the formula of R50 on it (10_state R20). -/
abbrev State.PllLegal (s : State) : Prop :=
  settingError (inputHz s.cfg) s.pll.setting = none ∧ s.pll.outFreq = outputHz (inputHz s.cfg) s.pll.setting

/-- The accumulators are within their windup limits (10_state R22, 42_controller R76 (a)). -/
abbrev State.WindupContained (s : State) : Prop :=
  (s.cfg.ki ≠ 0 → |s.ctrl.errorAccum| ≤ windupSpan s.cfg / s.cfg.ki) ∧
  (s.cfg.kii ≠ 0 → |s.ctrl.errorAccumAccum| ≤ windupSpan s.cfg / s.cfg.kii)

/-- A locked status has a spent counter (43_lut_dco R85 (c)). -/
abbrev State.LockLegal (s : State) : Prop := s.dco.lockStatus = .locked → s.dco.lockCount = 0

/-- The count and the lock counter are within their widths (10_state R21, R23). -/
abbrev State.WithinWidths (s : State) : Prop :=
  s.pfd.lastCount < countModulus s.cfg ∧ s.dco.lockCount ≤ s.cfg.lockCountThreshold

/-- The invariant of the block: the widths always; a latched fault is on record (R115); while the block runs, a valid
configuration, a legal `S.pll` (R20), contained accumulators (R76 (a)) and a legal lock detector (R85 (c)). -/
abbrev State.Inv (s : State) : Prop :=
  s.WithinWidths ∧ (s.started = true → s.fault = true → s.faultSeen = true) ∧
  (s.Running → ConfigValid s.cfg ∧ s.PllLegal ∧ s.WindupContained ∧ s.LockLegal)

/-- "No fault was ever raised": the premise R115 gives to claims about whole runs. -/
abbrev State.Unfaulted (s : State) : Prop := s.faultSeen = false

/-- Apply operations in order, each to the state the one before left (70_reset_and_hazards R124): the sequence of result
tuples and the last state, if every operation has a step. -/
def execAll : List Instr → State → Option (List Result × State)
  | [], s => some ([], s)
  | i :: is, s =>
    match exec i s with
    | .next t => (execAll is t).map fun (rs, u) => (t.result :: rs, u)
    | .fault _ => none
    | .refused _ => none

/-- The `error` on a result tuple of `PFD_GET_ERROR`; 0 on any other. -/
def Result.errorValue : Result → Rat
  | .pfdError e _ => e
  | .noPorts => 0
  | .freq _ _ => 0
  | .totalError _ => 0
  | .ctrl _ _ => 0
  | .sdmIn _ => 0
  | .freqLock _ _ => 0
  | .tick _ _ _ => 0
  | .observation _ _ _ _ => 0

/-- The edges the detector counts over consecutive counts, the sum of `inc_raw` (41_pfd R61, R67 (e)). -/
def edgesCounted (c : Config) : Nat → List Nat → Nat
  | _, [] => 0
  | last, n :: ns => rawIncrement c last n + edgesCounted c n ns

/-- The counts a host presents of an edge counter at `counter` that advances by each of the list in turn: the counter's low
`W` bits (30_encoding R42 (a), 70_reset_and_hazards R122 (f)). -/
def presentedCounts (c : Config) : Nat → List Nat → List Nat
  | _, [] => []
  | counter, n :: ns => (counter + n) % countModulus c :: presentedCounts c (counter + n) ns

/-- The signed-wrap alternative of the error at `pf = 1` (41_pfd R68). -/
def signedWrapError (c : Config) (lastCount count : Nat) : Int :=
  ((rawIncrement c lastCount count : Int) - expectedIncrementInt c + 2 ^ (c.countWidth - 1)) % 2 ^ c.countWidth
    - 2 ^ (c.countWidth - 1)

/-- `K` of 40_pll_register_model R55: the frequency per unit of the multiplier. -/
def unitHz (inputHz : Hz) (q : PllSetting) : Rat := inputHz / 2 / (q.R + 1) / (q.OD + 1) / (2 * (q.ACD + 1))

end Sys2Proof.Machine
end

