-- ==== Sys2Proof/WellFormed.lean ====
section
/-! DEFINITION. Which operations a host can present: the operand values the spec admits (30_encoding R42, R46). -/

namespace Sys2Proof

/-- `count` fits the `W`-bit port (R42 (a)). -/
def countFits (c : Config) (count : Nat) : Bool := count < 2 ^ c.countWidth

/-- `pf` is absent or positive (41_pfd R63). -/
def periodFractionPositive : Option Rat → Bool
  | none => true
  | some q => 0 < q

/-- An operation of the block with operands in their domains, in either variant. -/
def Instr.wellFormed (c : Config) : Instr → Bool
  | .reset => true
  | .pllUpdateAll _ _ _ _ _ _ => true
  | .pllUpdateFrac _ _ _ => true
  | .pllUpdateFracReg _ => true
  | .pllCalcFreq => true
  | .pfdGetError count pf => countFits c count && periodFractionPositive pf
  | .ctrlCore _ _ => true
  | .ctrlLut _ _ => true
  | .ctrlSdm _ _ => true
  | .lutGetFreq _ _ => true
  | .sdmSetPoint _ => true
  | .sdmTick => true
  | .stepLut count pf => countFits c count && periodFractionPositive pf
  | .stepSdm count pf => countFits c count && periodFractionPositive pf
  | .observe => true
  | .reserved => false

end Sys2Proof
end

