-- ==== Sys2Proof/Certificates/Slice0/Obligations.lean ====
section
/-! DEFINITION. What the provers are to prove of the model. -/

open Sys2Proof Sys2Proof.Machine

/-! ## Encoding and fetching -/

/-- 30_encoding R40, R41, R47: encoding an operation and decoding its ports gives it back with every operand; and an
operation's selector is the one it was decoded from, for every frame. -/
def Obligations.DecodeEncodeAgree : Prop :=
  (∀ i : Instr, decode (encode i) = i) ∧ ∀ fr : Frame, selector (decode fr) = fr.op

/-- Seven selectors written out from 30_encoding R40's table decode to their operations. That a table word is the
selector alone, with the operand ports 0 or absent, and that a word wider than the selector is none, is the model's choice,
logs 13 and 14. -/
def Obligations.WrittenSelectorsDecode : Prop :=
  decodeTableWord 8 0b0011 = some (.pllUpdateFracReg 0) ∧ decodeTableWord 8 0b0101 = some (.pfdGetError 0 none) ∧
  decodeTableWord 8 0b1000 = some (.ctrlSdm 0 false) ∧ decodeTableWord 8 0b1001 = some (.lutGetFreq false 0) ∧
  decodeTableWord 8 0b1011 = some .sdmTick ∧ decodeTableWord 8 0b1110 = some .observe ∧
  decodeTableWord 8 0b1111 = some .reserved ∧ decodeTableWord 8 0b10000 = none

/-- 10_state R28, 70_reset_and_hazards R124: a step takes the operation at the head of the host's list off the list and
executes it; an exhausted list ends the run (the name of that stop is the model's, log 3). -/
def Obligations.StepRunsDecodedOperation : Prop :=
  (∀ (s : State) (fr : Frame) (rest : List Frame), s.input = fr :: rest →
    step s = exec (decode fr) { s with input := rest }) ∧
  ∀ s : State, s.input = [] → step s = .refused .runEnded

/-- 30_encoding R44: the two packings of 16 bits are inverse to each other, with `f` in the upper byte. -/
def Obligations.TablePackingsAreInverse : Prop :=
  (∀ f p : BitVec 8, wordF (pack16 f p) = f ∧ wordP (pack16 f p) = p ∧ (pack16 f p).toNat = 256 * f.toNat + p.toNat) ∧
  (∀ w : TableWord, pack16 (wordF w) (wordP w) = w ∧ wordF w = w.extractLsb' 8 8 ∧ wordP w = w.extractLsb' 0 8) ∧
  pack16 19 21 = 0x1315

/-- 30_encoding R45, for `FRAC_EN_BIT` anywhere in the upper half: unpacking a packed word gives the fields; the other bits of
the upper half of a packed word are zero, and those of an unpacked word are ignored. -/
def Obligations.FractionalWordPacking : Prop :=
  (∀ k, 16 ≤ k → k < 32 →
    (∀ (f p : BitVec 8) (en : Bool), fracWordF (pack32 k f p en) = f ∧ fracWordP (pack32 k f p en) = p ∧
      fracWordEn k (pack32 k f p en) = en ∧
      ∀ j, 16 ≤ j → j < 32 → j ≠ k → (pack32 k f p en).getLsbD j = false) ∧
    ∀ w v : FracWord, (∀ j, j < 16 ∨ j = k → w.getLsbD j = v.getLsbD j) →
      fracWordF w = fracWordF v ∧ fracWordP w = fracWordP v ∧ fracWordEn k w = fracWordEn k v) ∧
  pack32 31 19 21 true = 0x80001315

/-- 30_encoding R43: the lock status on its port is two's complement, and the code `10` never occurs. -/
def Obligations.LockPortCodes : Prop :=
  LockStatus.code .unlockedLow = 0b11 ∧ LockStatus.code .locked = 0b00 ∧ LockStatus.code .unlockedHigh = 0b01 ∧
  ∀ l : LockStatus, l.code ≠ 0b10 ∧ l.code.toInt = l.toInt

/-! ## The PLL register model -/

/-- 40_pll_register_model R50: which value or cause `CalcFrequency` gives, for every argument: the checks in their order,
the VCO check on the integer multiplier only, both bounds inclusive. -/
def Obligations.CalcFrequencyChecksThenComputes : Prop :=
  ∀ (hz : Hz) (q : PllSetting),
    let legal := (1 ≤ q.F ∧ q.F ≤ 8191) ∧ q.R ≤ 63 ∧ q.OD ≤ 7
    let vco := hz * (q.F + 1) / 2 / (q.R + 1)
    let frac : Rat := if q.en = true then ((q.f.toNat : Rat) + 1) / (q.p.toNat + 1) else 0
    (calcFrequency hz q = .error .pllFRange ↔ q.F < 1 ∨ 8191 < q.F) ∧
    (calcFrequency hz q = .error .pllRRange ↔ (1 ≤ q.F ∧ q.F ≤ 8191) ∧ 63 < q.R) ∧
    (calcFrequency hz q = .error .pllOdRange ↔ (1 ≤ q.F ∧ q.F ≤ 8191) ∧ q.R ≤ 63 ∧ 7 < q.OD) ∧
    (calcFrequency hz q = .error .pllVcoRange ↔ legal ∧ (vco < 360000000 ∨ 1800000000 < vco)) ∧
    (∀ v, calcFrequency hz q = .ok v ↔ (legal ∧ 360000000 ≤ vco ∧ vco ≤ 1800000000) ∧
      v = hz * (q.F + 1 + frac) / 2 / (q.R + 1) / (q.OD + 1) / (2 * (q.ACD + 1)))

/-- 40_pll_register_model R55 (a), (b), (c): the result is `K * (F + 1 + frac)` with `K > 0`; without the enable it does
not depend on `f`, `p`; with it, the order of two results is the order of the ratios, and `frac` is in `[1/256, 256]`.
The spec marks this as its own inference. -/
def Obligations.FrequencyIsMonotoneInFraction : Prop :=
  ∀ (hz : Hz) (q : PllSetting) (f p f' p' : BitVec 8), 0 < hz →
    0 < unitHz hz q ∧
    outputHz hz { q with f := f, p := p, en := false } = unitHz hz q * (q.F + 1) ∧
    outputHz hz { q with f := f, p := p, en := true } = unitHz hz q * (q.F + 1 + (f.toNat + 1) / (p.toNat + 1)) ∧
    (outputHz hz { q with f := f, p := p, en := true } ≤ outputHz hz { q with f := f', p := p', en := true } ↔
      (f.toNat + 1) * (p'.toNat + 1) ≤ (f'.toNat + 1) * (p.toNat + 1)) ∧
    1 / 256 ≤ fracPart { q with f := f, p := p, en := true } ∧ fracPart { q with f := f, p := p, en := true } ≤ 256

/-- 40_pll_register_model R52: with a legal new setting, the six fields are replaced, `frac_en` keeps its value, the
frequency is recomputed and returned, and nothing else changes (`S.dco.last_freq` among it). With an illegal one the
exception is taken: only the fault registers and the results change, and the `freq` result is a free value.
The draw counter and the fault record are the model's own, logs 7 and 8. The exception's effect is 60_exceptions R111. -/
def Obligations.PllUpdateAllReplacesAllFields : Prop :=
  ∀ (s : State) (F : BitVec 13) (R : BitVec 6) (OD : BitVec 3) (ACD : Nat) (f p : BitVec 8), s.Running →
    let q : PllSetting := ⟨F.toNat, R.toNat, OD.toNat, ACD, f, p, s.pll.fracEn⟩
    selector (.pllUpdateAll F R OD ACD f p) = 0b0001 ∧
    (∀ v, calcFrequency (inputHz s.cfg) q = .ok v →
      exec (.pllUpdateAll F R OD ACD f p) s =
        .next { s with pll := ⟨F, R, OD, ACD, f, p, s.pll.fracEn, v⟩, result := .freq v false }) ∧
    (∀ c, calcFrequency (inputHz s.cfg) q = .error c →
      ∃ v, exec (.pllUpdateAll F R OD ACD f p) s =
        .next { s with
          fault := true, faultCause := c, faultSeen := true, draws := s.draws + 1, result := .freq v true })

/-- 40_pll_register_model R53: the fractional pair and the enable are replaced, stored whatever the enable, and the frequency
recomputed; no exception where `S.pll` is legal; nothing else changes. -/
def Obligations.PllUpdateFracReplacesFraction : Prop :=
  ∀ (s : State) (f p : BitVec 8) (en : Bool), s.Running → s.PllLegal →
    let v := outputHz (inputHz s.cfg) { s.pll.setting with f := f, p := p, en := en }
    selector (.pllUpdateFrac f p en) = 0b0010 ∧
    calcFrequency (inputHz s.cfg) { s.pll.setting with f := f, p := p, en := en } = .ok v ∧
    exec (.pllUpdateFrac f p en) s =
      .next { s with pll := { s.pll with f := f, p := p, fracEn := en, outFreq := v }, result := .freq v false }

/-- 40_pll_register_model R54: the word's fields, `f` from bits 15:8, `p` from bits 7:0, the enable from bit `FRAC_EN_BIT`,
are what `PLL_UPDATE_FRAC` is performed with; no other bit of the word is read. That the enable is 0 for a `FRAC_EN_BIT` of 32
or more is the model's choice, log 21. -/
def Obligations.PllUpdateFracRegUnpacksWord : Prop :=
  ∀ (s : State) (word : FracWord), s.Running → s.PllLegal →
    let f := word.extractLsb' 8 8
    let p := word.extractLsb' 0 8
    let en := word.getLsbD s.cfg.fracEnBit
    let v := outputHz (inputHz s.cfg) { s.pll.setting with f := f, p := p, en := en }
    selector (.pllUpdateFracReg word) = 0b0011 ∧
    exec (.pllUpdateFracReg word) s = exec (.pllUpdateFrac f p en) s ∧
    exec (.pllUpdateFracReg word) s =
      .next { s with pll := { s.pll with f := f, p := p, fracEn := en, outFreq := v }, result := .freq v false }

/-- 40_pll_register_model R51: the live fields are checked and the frequency computed, stored and returned, nothing else; with
illegal live fields the exception is taken; where `S.pll` is legal (10_state R20) it cannot be, and `S.pll` is not changed.
The exception's effect is 60_exceptions R111; that it is taken so in states no run reaches is the model's inference, log 16, and
the draw counter and the fault record are the model's own, logs 7 and 8. -/
def Obligations.PllCalcFreqIsIdempotent : Prop :=
  selector .pllCalcFreq = 0b0100 ∧ ∀ s : State, s.Running →
    (∀ v, calcFrequency (inputHz s.cfg) s.pll.setting = .ok v →
      exec .pllCalcFreq s = .next { s with pll := { s.pll with outFreq := v }, result := .freq v false }) ∧
    (∀ c, calcFrequency (inputHz s.cfg) s.pll.setting = .error c →
      ∃ v, exec .pllCalcFreq s =
        .next { s with
          fault := true, faultCause := c, faultSeen := true, draws := s.draws + 1, result := .freq v true }) ∧
    (s.PllLegal → exec .pllCalcFreq s = .next { s with result := .freq s.pll.outFreq false })

/-! ## The phase/frequency detector -/

/-- 41_pfd R61: the increment modulo `2^W`, divided by `pf` (absent means 1), less `Ei`; the strict range test; `last_count`
written unconditionally; nothing else changes. A period fraction that is not positive is refused. -/
def Obligations.PfdGetErrorResult : Prop :=
  ∀ (s : State) (count : Nat) (pf : Option Rat), s.Running → count < 2 ^ s.cfg.countWidth →
    let E := s.cfg.nominalOutputHz / s.cfg.controlRateHz
    let incRaw : Int := ((count : Int) - s.pfd.lastCount) % 2 ^ s.cfg.countWidth
    let error : Rat := (incRaw : Rat) / pf.getD 1 - ⌊E⌋
    let fl : Bool := decide (s.cfg.ppmRange / 1000000 * E < |error|)
    selector (.pfdGetError count pf) = 0b0101 ∧
    (0 < pf.getD 1 → exec (.pfdGetError count pf) s =
      .next { s with pfd := { lastCount := count, firstLoop := fl }, result := .pfdError error fl }) ∧
    (pf.getD 1 ≤ 0 → exec (.pfdGetError count pf) s = .refused .periodFractionNotPositive)

/-- 41_pfd R62: a counter that advanced by `n` edges gives `n mod 2^W`, so `n` itself below `2^W`, whatever the wrap; and with
`pf = 1` the error is an integer in `[-Ei, 2^W - 1 - Ei]`, not wrapped again. -/
def Obligations.IncrementSurvivesWrap : Prop :=
  ∀ (c : Config) (last n : Nat), last < countModulus c →
    rawIncrement c last ((last + n) % countModulus c) = n % countModulus c ∧
    (n < countModulus c → rawIncrement c last ((last + n) % countModulus c) = n) ∧
    ∀ count, ∃ e : Int, pfdErrorValue c last count 1 = e ∧ -expectedIncrementInt c ≤ e ∧
      e ≤ (countModulus c : Int) - 1 - expectedIncrementInt c

/-- 41_pfd R68: under R66 and `PPM_RANGE ≤ 1000000`, with `pf = 1`, the signed-wrap error is the error on every in-range
sample, and where the two differ both are out of range.
The spec marks this as its own inference. -/
def Obligations.SignedWrapAgreesInRange : Prop :=
  ∀ (c : Config) (last count : Nat), pfdError c = none → c.ppmRange ≤ 1000000 →
    (outOfRange c (pfdErrorValue c last count 1) = false →
      (signedWrapError c last count : Rat) = pfdErrorValue c last count 1) ∧
    ((signedWrapError c last count : Rat) ≠ pfdErrorValue c last count 1 →
      outOfRange c (pfdErrorValue c last count 1) = true ∧ outOfRange c (signedWrapError c last count) = true)

/-- 41_pfd R67 (e), which the spec marks as its own inference: over any number of consecutive calls with the nominal interval,
the errors sum to `Σ inc_raw` less `Ei` per call; `Σ inc_raw` is, modulo `2^W`, the last count less the first; and where the
counts are those of a counter of which no single advance reaches `2^W`, `Σ inc_raw` is its whole advance: no edge is lost. -/
def Obligations.DetectorLosesNoEdge : Prop :=
  ∀ (s : State) (counts : List Nat), s.Running → s.pfd.lastCount < countModulus s.cfg →
    (∀ n ∈ counts, n < countModulus s.cfg) →
    let edges := edgesCounted s.cfg s.pfd.lastCount counts
    (∃ results t, execAll (counts.map fun n => .pfdGetError n none) s = some (results, t) ∧
      (results.map Result.errorValue).sum = (edges : Rat) - counts.length * expectedIncrementInt s.cfg) ∧
    (countModulus s.cfg : Int) ∣ edges - ((counts.getLastD s.pfd.lastCount : Int) - s.pfd.lastCount) ∧
    ∀ (counter : Nat) (advances : List Nat), counter % countModulus s.cfg = s.pfd.lastCount →
      counts = presentedCounts s.cfg counter advances → (∀ n ∈ advances, n < countModulus s.cfg) →
      edges = advances.sum

/-! ## The controller -/

/-- 42_controller R71, R72: the accumulators are zeroed on a `first_loop` call; the single integral is updated and clamped,
then the double integral, on its own limit, with the new single integral; a zero gain has no clamp (R70); `total_error` uses
the unclamped error. Nothing else changes. -/
def Obligations.CtrlCoreUpdatesAccumulators : Prop :=
  ∀ (s : State) (error : Rat) (fl : Bool), s.Running →
    let bound (gain v : Rat) : Rat :=
      if gain = 0 then v else clamp v (-(windupSpan s.cfg / gain)) (windupSpan s.cfg / gain)
    let e : Rat := if fl then 0 else error
    let a : Rat := bound s.cfg.ki ((if fl then 0 else s.ctrl.errorAccum) + e)
    let aa : Rat := bound s.cfg.kii ((if fl then 0 else s.ctrl.errorAccumAccum) + a)
    let total := s.cfg.kp * e + s.cfg.ki * a + s.cfg.kii * aa
    selector (.ctrlCore error fl) = 0b0110 ∧
    exec (.ctrlCore error fl) s =
      .next { s with
        ctrl := { s.ctrl with errorAccum := a, errorAccumAccum := aa, totalError := total }
        result := .totalError total }

/-- 42_controller R76 (a): under a valid configuration every controller call leaves both accumulators within their limits,
from whatever values.
The spec marks this as its own inference. -/
def Obligations.ControllerContainsWindup : Prop :=
  ∀ (s t : State) (i : Instr), ConfigValid s.cfg →
    (∃ e fl, i = .ctrlCore e fl ∨ i = .ctrlLut e fl ∨ i = .ctrlSdm e fl) → exec i s = .next t → t.WindupContained

/-- 42_controller R76 (b), (c), R73: after a `first_loop` call the accumulators and `total_error` are 0, whatever the error;
the next call integrates from zero.
The spec marks R76 as its own inference. -/
def Obligations.ResynchronisationClearsAccumulators : Prop :=
  ∀ (s : State) (error e : Rat), s.Running → ConfigValid s.cfg →
    ∃ t u, exec (.ctrlCore error true) s = .next t ∧ exec (.ctrlCore e false) t = .next u ∧
      t.ctrl.errorAccum = 0 ∧ t.ctrl.errorAccumAccum = 0 ∧ t.ctrl.totalError = 0 ∧
      u.ctrl.errorAccum = clampWithin e (windupLimit s.cfg s.cfg.ki) ∧
      u.ctrl.errorAccumAccum =
        clampWithin (clampWithin e (windupLimit s.cfg s.cfg.ki)) (windupLimit s.cfg s.cfg.kii)

/-- 42_controller R74: the writes are those of `CTRL_CORE`; the result is `BASE_LUT_INDEX - total_error`, or the null sentinel
with an unspecified value on a `first_loop` call.
The draw counter is the model's own, log 7. -/
def Obligations.CtrlLutSubtractsFromBaseIndex : Prop :=
  ∀ (s : State) (error : Rat) (fl : Bool), s.Running → s.cfg.variant = .lut →
    selector (.ctrlLut error fl) = 0b0111 ∧
    ∃ t, exec (.ctrlCore error fl) s = .next t ∧
      (fl = false → exec (.ctrlLut error fl) s =
        .next { t with result := .ctrl true (s.cfg.baseLutIndex - t.ctrl.totalError) }) ∧
      (fl = true → ∃ v, exec (.ctrlLut error fl) s =
        .next { t with draws := s.draws + 1, result := .ctrl false v })

/-- 42_controller R75: the core on the negated error, then the filter on the rounded `total_error`, then the nominal midpoint;
`first_loop` does not clear the filter. -/
def Obligations.CtrlSdmFiltersNegatedError : Prop :=
  ∀ (s : State) (error : Rat) (fl : Bool), s.Running → s.cfg.variant = .sdm →
    selector (.ctrlSdm error fl) = 0b1000 ∧
    ∃ t, exec (.ctrlCore (-error) fl) s = .next t ∧ t.ctrl.iirY = s.ctrl.iirY ∧
      let x : Int := match s.cfg.roundCtrl with
        | .trunc => trunc t.ctrl.totalError
        | .floor => ⌊t.ctrl.totalError⌋
      let y : Int := s.ctrl.iirY + ⌊((x - s.ctrl.iirY : Int) : Rat) / 8⌋
      exec (.ctrlSdm error fl) s =
        .next { t with ctrl := { t.ctrl with iirY := y }, result := .sdmIn (sdmNominal s.cfg + y) }

/-- 42_controller R77: the filter moves toward its input and never passes it, and its fixed points are `x - 7 ≤ y ≤ x`. -/
def Obligations.FilterNeverOvershoots : Prop :=
  ∀ y x : Int,
    (y ≤ x → y ≤ filterStep y x ∧ filterStep y x ≤ x) ∧ (x ≤ y → x ≤ filterStep y x ∧ filterStep y x ≤ y) ∧
    (filterStep y x = y ↔ x - 7 ≤ y ∧ y ≤ x)

/-- 00_scope R8: `trunc` rounds toward zero, and agrees with `floor` from 0 on. -/
def Obligations.TruncRoundsTowardZero : Prop :=
  ∀ q : Rat, (0 ≤ q → trunc q = ⌊q⌋) ∧ (q ≤ 0 → trunc q = ⌈q⌉) ∧ |(trunc q : Rat)| ≤ |q| ∧ |q - trunc q| < 1

/-! ## The lookup-table DCO -/

/-- 43_lut_dco R81, R82: the control value is clamped to `[0, N-1]` and then floored to an index; a sample is out of range
exactly when the clamp changes it; the lock registers follow R80; the entry's `f`, `p` are written with the enable set, the
frequency recomputed, cached and returned. Nothing else changes. The null operand returns the cached frequency and lock and
writes no register (R83). -/
def Obligations.LutGetFreqSelectsEntry : Prop :=
  ∀ (s : State) (ctrl : Rat), s.Running → s.cfg.variant = .lut → s.PllLegal → 1 ≤ s.cfg.lut.length →
    let top : Rat := (s.cfg.lut.length : Rat) - 1
    let idx : Int := ⌊clamp ctrl 0 top⌋
    (∀ b, selector (.lutGetFreq b ctrl) = 0b1001) ∧
    exec (.lutGetFreq false ctrl) s = .next { s with result := .freqLock s.dco.lastFreq s.dco.lockStatus.code } ∧
    ∃ w, 0 ≤ idx ∧ s.cfg.lut[idx.toNat]? = some w ∧
      let v := outputHz (inputHz s.cfg)
        { s.pll.setting with f := w.extractLsb' 8 8, p := w.extractLsb' 0 8, en := true }
      let count := if ctrl < 0 ∨ top < ctrl then s.cfg.lockCountThreshold else s.dco.lockCount - 1
      let lock : LockStatus :=
        if ctrl < 0 then .unlockedLow else if top < ctrl then .unlockedHigh
        else if s.dco.lockCount - 1 = 0 then .locked else s.dco.lockStatus
      exec (.lutGetFreq true ctrl) s =
        .next { s with
          pll := { s.pll with f := w.extractLsb' 8 8, p := w.extractLsb' 0 8, fracEn := true, outFreq := v }
          dco := { lockStatus := lock, lockCount := count, lastFreq := v }
          result := .freqLock v lock.code }

/-- 43_lut_dco R84: a non-null call does to `S.pll` what `PLL_UPDATE_FRAC_REG` does on the table entry with the enable bit set;
after it the fractional register word is that word (for `FRAC_EN_BIT = 31`, `0x80000000 | entry`), and `F, R, OD, ACD` are not
touched. -/
def Obligations.LutForcesFractionalEnable : Prop :=
  ∀ (s : State) (ctrl : Rat), s.Running → s.cfg.variant = .lut → s.PllLegal → 1 ≤ s.cfg.lut.length →
    16 ≤ s.cfg.fracEnBit → s.cfg.fracEnBit < 32 →
    ∃ w t u, s.cfg.lut[(⌊clamp ctrl 0 ((s.cfg.lut.length : Rat) - 1)⌋).toNat]? = some w ∧
      let word : FracWord := 1#32 <<< s.cfg.fracEnBit ||| w.setWidth 32
      exec (.lutGetFreq true ctrl) s = .next t ∧ exec (.pllUpdateFracReg word) s = .next u ∧ t.pll = u.pll ∧
      t.fracReg = word ∧ (s.cfg.fracEnBit = 31 → t.fracReg = 0x80000000 ||| w.setWidth 32) ∧
      t.pll.F = s.pll.F ∧ t.pll.R = s.pll.R ∧ t.pll.OD = s.pll.OD ∧ t.pll.ACD = s.pll.ACD

/-- 43_lut_dco R85 (a): under the invariant, the frequency a non-null call leaves lies between those of the first and the last
table entry, with the live `F, R, OD, ACD`.
The spec marks this as its own inference. -/
def Obligations.LutFrequencyStaysInTableRange : Prop :=
  ∀ (s : State) (ctrl : Rat), s.Inv → s.Running → s.cfg.variant = .lut →
    let hz (w : TableWord) := outputHz (inputHz s.cfg) { s.pll.setting with f := wordF w, p := wordP w, en := true }
    ∃ t first last, exec (.lutGetFreq true ctrl) s = .next t ∧
      s.cfg.lut.head? = some first ∧ s.cfg.lut.getLast? = some last ∧
      hz first ≤ t.dco.lastFreq ∧ t.dco.lastFreq ≤ hz last

/-- 43_lut_dco R80, R85 (b): an out-of-range sample leaves locked at once; after it, in-range samples leave the status as it is
until the `LOCK_COUNT_THRESHOLD`-th of them (the first, for a threshold of 0), and from that one on the loop is locked.
The spec marks R85 as its own inference. -/
def Obligations.LutLockNeedsSustainedRange : Prop :=
  ∀ (s : State) (out : Rat) (samples : List Rat), s.Inv → s.Running → s.cfg.variant = .lut →
    (out < 0 ∨ (s.cfg.lut.length : Rat) - 1 < out) →
    (∀ x ∈ samples, 0 ≤ x ∧ x ≤ (s.cfg.lut.length : Rat) - 1) →
    ∃ results t, execAll ((out :: samples).map fun x => .lutGetFreq true x) s = some (results, t) ∧
      t.dco.lockStatus =
        if samples ≠ [] ∧ s.cfg.lockCountThreshold ≤ samples.length then .locked
        else if out < 0 then .unlockedLow else .unlockedHigh

/-! ## The sigma-delta DCO -/

/-- 44_sdm_dco R90: the set-point is stored as given, unclamped; nothing else changes and no result is driven. -/
def Obligations.SdmSetPointStoresValue : Prop :=
  ∀ (s : State) (v : Int), s.Running → s.cfg.variant = .sdm →
    selector (.sdmSetPoint v) = 0b1010 ∧
    exec (.sdmSetPoint v) s = .next { s with sdm := { s.sdm with setpoint := v }, result := .noPorts }

/-- 44_sdm_dco R93, R91, R92: the set-point is clamped, boundaries in range, and drives the lock registers; the modulator is
run on the clamped value; its step is mapped to the fractional fields; the frequency is recomputed, cached and returned. The
set-point and everything else are unchanged. For every `SDM_UPDATE`. -/
def Obligations.SdmTickRunsModulator : Prop :=
  ∀ s : State, s.Running → s.cfg.variant = .sdm → s.PllLegal →
    let lo := sdmInMin s.cfg
    let hi := sdmInMax s.cfg
    let sp := s.sdm.setpoint
    let out := sdmUpdate s.cfg s.sdm.x1 s.sdm.x2 s.sdm.x3 (if hi < sp then hi else if sp < lo then lo else sp)
    let f : BitVec 8 := if out.step = 0 then 0 else BitVec.ofNat 8 (out.step.val - 1)
    let en : Bool := out.step ≠ 0
    let v := outputHz (inputHz s.cfg) { s.pll.setting with f := f, p := 7, en := en }
    let count := if hi < sp ∨ sp < lo then s.cfg.lockCountThreshold else s.dco.lockCount - 1
    let lock : LockStatus :=
      if hi < sp then .unlockedHigh else if sp < lo then .unlockedLow
      else if s.dco.lockCount - 1 = 0 then .locked else s.dco.lockStatus
    selector .sdmTick = 0b1011 ∧
    exec .sdmTick s =
      .next { s with
        pll := { s.pll with f := f, p := 7, fracEn := en, outFreq := v }
        dco := { lockStatus := lock, lockCount := count, lastFreq := v }
        sdm := { x1 := out.x1, x2 := out.x2, x3 := out.x3, setpoint := sp, lastStep := out.step }
        result := .tick (BitVec.ofNat 4 out.step.val) v lock.code }

/-- 44_sdm_dco R96 (a), (b), (c), R92: a tick's step is at most 8; the frequency is `K * (F + 1 + step/8)`, so between
`K * (F+1)` and `K * (F+2)`; `p = 7`, `f ≤ 7`, and the enable is clear exactly for step 0.
The spec marks this as its own inference. -/
def Obligations.SdmTickStaysInStepRange : Prop :=
  ∀ s t : State, s.Inv → s.Running → exec .sdmTick s = .next t →
    let K := unitHz (inputHz s.cfg) s.pll.setting
    t.sdm.lastStep.val ≤ 8 ∧ t.dco.lastFreq = K * (s.pll.F.toNat + 1 + t.sdm.lastStep.val / 8) ∧
    K * (s.pll.F.toNat + 1) ≤ t.dco.lastFreq ∧ t.dco.lastFreq ≤ K * (s.pll.F.toNat + 2) ∧
    t.pll.p = 7 ∧ t.pll.f.toNat ≤ 7 ∧ (t.pll.fracEn = false ↔ t.sdm.lastStep = 0)

/-- 43_lut_dco R80 and 44_sdm_dco R91, R96 (d), which the spec marks as its own inference: a tick on an out-of-range set-point
leaves locked at once; after it, ticks on in-range set-points, any number on each, leave the status as it is until the
`LOCK_COUNT_THRESHOLD`-th of them (the first, for a threshold of 0), and from that one on the loop is locked. Writing a
set-point is no sample. For every `SDM_UPDATE`. -/
def Obligations.SdmLockNeedsSustainedRange : Prop :=
  ∀ (s : State) (out : Int) (runs : List (Int × Nat)), s.Inv → s.Running → s.cfg.variant = .sdm →
    (out < sdmInMin s.cfg ∨ sdmInMax s.cfg < out) →
    (∀ r ∈ runs, sdmInMin s.cfg ≤ r.1 ∧ r.1 ≤ sdmInMax s.cfg) →
    let ticks := (runs.map Prod.snd).sum
    ∃ results t, execAll ([.sdmSetPoint out, .sdmTick] ++
        runs.flatMap fun r => .sdmSetPoint r.1 :: List.replicate r.2 .sdmTick) s = some (results, t) ∧
      t.dco.lockStatus =
        if 0 < ticks ∧ s.cfg.lockCountThreshold ≤ ticks then .locked
        else if out < sdmInMin s.cfg then .unlockedLow else .unlockedHigh

/-- 20_memory R38: the tick after a set-point write reads the new value, with nothing needed between: the modulator runs on it,
clamped. -/
def Obligations.SetPointVisibleAtNextTick : Prop :=
  ∀ (s : State) (v : Int), s.Running → s.cfg.variant = .sdm → s.PllLegal →
    ∃ t u, exec (.sdmSetPoint v) s = .next t ∧ exec .sdmTick t = .next u ∧
      let out := sdmUpdate s.cfg s.sdm.x1 s.sdm.x2 s.sdm.x3
        (if sdmInMax s.cfg < v then sdmInMax s.cfg else if v < sdmInMin s.cfg then sdmInMin s.cfg else v)
      u.sdm.setpoint = v ∧ u.sdm.x1 = out.x1 ∧ u.sdm.x2 = out.x2 ∧ u.sdm.x3 = out.x3 ∧ u.sdm.lastStep = out.step ∧
      (sdmInMax s.cfg < v → u.dco.lockStatus = .unlockedHigh) ∧
      (¬ sdmInMax s.cfg < v → v < sdmInMin s.cfg → u.dco.lockStatus = .unlockedLow)

/-- 20_memory R37: the modulator agent neither reads nor writes `S.pfd` or `S.ctrl`: a tick from a state with other values there
does the same and leaves those values. -/
def Obligations.TickIgnoresControlAgent : Prop :=
  ∀ (s t : State) (a : PfdRegs) (b : CtrlRegs), exec .sdmTick s = .next t →
    t.pfd = s.pfd ∧ t.ctrl = s.ctrl ∧
    exec .sdmTick { s with pfd := a, ctrl := b } = .next { t with pfd := a, ctrl := b }

/-- 20_memory R37: a control period of the SDM variant neither reads nor writes the modulator registers and never writes
`S.pll` or `S.dco`: from a state with other values in `x1..x3`, `last_step`, `S.pll` it does the same and leaves those values. -/
def Obligations.PeriodIgnoresModulator : Prop :=
  ∀ (s t : State) (count : Nat) (pf : Option Rat) (a b c : Int) (k : Fin 9) (r : PllRegs),
    exec (.stepSdm count pf) s = .next t →
    t.pll = s.pll ∧ t.dco = s.dco ∧ t.sdm = { s.sdm with setpoint := t.sdm.setpoint } ∧
    exec (.stepSdm count pf) { s with pll := r, sdm := { s.sdm with x1 := a, x2 := b, x3 := c, lastStep := k } } =
      .next { t with pll := r, sdm := { t.sdm with x1 := a, x2 := b, x3 := c, lastStep := k } }

/-! ## The orchestrator and the system operations -/

/-- 45_orchestrator_system R101: under the invariant, `STEP_LUT` is the three operations in order, each with the results of
the one before: same state, same results; it does not raise. A period fraction that is not positive is refused. -/
def Obligations.StepLutIsThreeOperations : Prop :=
  ∀ (s : State) (count : Nat) (pf : Option Rat), s.Inv → s.Running → s.cfg.variant = .lut →
    selector (.stepLut count pf) = 0b1100 ∧
    (0 < pf.getD 1 → ∃ t u w e fl v d, exec (.pfdGetError count pf) s = .next t ∧ t.result = .pfdError e fl ∧
      exec (.ctrlLut e fl) t = .next u ∧ u.result = .ctrl v d ∧
      exec (.lutGetFreq v d) u = .next w ∧ exec (.stepLut count pf) s = .next w ∧
      w.result = .freqLock w.dco.lastFreq w.dco.lockStatus.code ∧ w.fault = false) ∧
    (pf.getD 1 ≤ 0 → exec (.stepLut count pf) s = .refused .periodFractionNotPositive)

/-- 45_orchestrator_system R102: `STEP_SDM` is the detector, the controller and the set-point write in order, and returns the
frequency and lock the latest tick left. A period fraction that is not positive is refused. -/
def Obligations.StepSdmIsThreeOperations : Prop :=
  ∀ (s : State) (count : Nat) (pf : Option Rat), s.Running → s.cfg.variant = .sdm →
    selector (.stepSdm count pf) = 0b1101 ∧
    (0 < pf.getD 1 → ∃ t u w e fl sp, exec (.pfdGetError count pf) s = .next t ∧ t.result = .pfdError e fl ∧
      exec (.ctrlSdm e fl) t = .next u ∧ u.result = .sdmIn sp ∧ exec (.sdmSetPoint sp) u = .next w ∧
      exec (.stepSdm count pf) s = .next { w with result := .freqLock s.dco.lastFreq s.dco.lockStatus.code }) ∧
    (pf.getD 1 ≤ 0 → exec (.stepSdm count pf) s = .refused .periodFractionNotPositive)

/-- 45_orchestrator_system R107 (a), (b), (c): a period in which the detector is out of range clears the accumulators, returns
the cached frequency and lock, and leaves `S.pll`, `S.dco` and so the lock counter as they were.
The spec marks R107 as its own inference. -/
def Obligations.ResynchronisationPeriodHoldsOscillator : Prop :=
  ∀ (s : State) (count : Nat) (pf : Option Rat), s.Running → ConfigValid s.cfg → s.cfg.variant = .lut →
    0 < pf.getD 1 → outOfRange s.cfg (pfdSampleError count pf s) = true →
    ∃ t, exec (.stepLut count pf) s = .next t ∧ t.pfd.firstLoop = true ∧ t.pll = s.pll ∧ t.dco = s.dco ∧
      t.ctrl = { s.ctrl with errorAccum := 0, errorAccumAccum := 0, totalError := 0 } ∧
      t.result = .freqLock s.dco.lastFreq s.dco.lockStatus.code

/-- 45_orchestrator_system R103: `OBSERVE` returns the tuple and writes nothing. That `frac_reg` carries no enable for a
`FRAC_EN_BIT` of 32 or more is the model's choice, log 21. -/
def Obligations.ObserveReturnsTuple : Prop :=
  selector .observe = 0b1110 ∧ ∀ s : State, s.Running →
    exec .observe s =
      .next { s with
        result := .observation s.dco.lockStatus.code (pack32 s.cfg.fracEnBit s.pll.f s.pll.p s.pll.fracEn)
          s.ctrl.errorAccum s.ctrl.errorAccumAccum }

/-- 45_orchestrator_system R100, 10_state R29: from any state, under a valid configuration `RESET` writes every reset value
(`fault_cause` unspecified) and returns the frequency; under an invalid one it latches the fault with the first failing check,
leaves every other register unspecified and returns `fault = 1`.
The bits `started` and `faultSeen` are the model's own, logs 4 and 8. -/
def Obligations.ResetWritesResetValues : Prop :=
  selector .reset = 0b0000 ∧ ∀ s : State,
    let q := pll0 s.cfg
    (ConfigValid s.cfg → ∃ cause v, calcFrequency (inputHz s.cfg) q = .ok v ∧
      q.F < 2 ^ 13 ∧ q.R < 2 ^ 6 ∧ q.OD < 2 ^ 3 ∧ exec .reset s =
      .next { s with
        pll := ⟨BitVec.ofNat 13 q.F, BitVec.ofNat 6 q.R, BitVec.ofNat 3 q.OD, q.ACD, q.f, q.p, q.en, v⟩
        pfd := ⟨0, true⟩
        ctrl := ⟨0, 0, 0, 0⟩
        dco := ⟨.unlockedLow, s.cfg.lockCountThreshold, v⟩
        sdm := ⟨0, 0, 0, sdmNominal s.cfg, 0⟩
        fault := false
        faultCause := cause
        started := true
        result := .freq v false }) ∧
    (∀ c, configError s.cfg = some c → ∃ (r : Regs) (v : Rat), exec .reset s =
      .next { s with
        pll := r.pll, pfd := r.pfd, ctrl := r.ctrl, dco := r.dco, sdm := r.sdm
        fault := true, faultCause := c, faultSeen := true, started := true
        result := .freq v true })

/-- 45_orchestrator_system R100: `RESET` has a step from every state, reads no register, and two leave the same state as
one.
That the unspecified values are functions of the configuration is the model's inference from that sentence, log 6. -/
def Obligations.ResetReadsNoRegister : Prop :=
  ∀ s u : State, u.cfg = s.cfg →
    ∃ t w, exec .reset s = .next t ∧ exec .reset u = .next w ∧ exec .reset t = .next t ∧
      t.regs = w.regs ∧ t.fault = w.fault ∧ t.faultCause = w.faultCause ∧ t.result = w.result

/-- 60_exceptions R112: the checks in their order, with R66's conditions for the detector and adjacent table entries compared
by their fractions; the first that fails is the cause. -/
def Obligations.ConfigurationChecksInOrder : Prop :=
  ∀ c : Config,
    let q := pll0 c
    let E := c.nominalOutputHz / c.controlRateHz
    let vco := inputHz c * (q.F + 1) / 2 / (q.R + 1)
    configError c =
      if ¬ (0 < inputHz c ∧ 0 < windupSpan c ∧ (c.variant = .lut → 1 ≤ c.lut.length)) then some .configParam
      else if q.F < 1 ∨ 8191 < q.F then some .pllFRange
      else if 63 < q.R then some .pllRRange
      else if 7 < q.OD then some .pllOdRange
      else if vco < 360000000 ∨ 1800000000 < vco then some .pllVcoRange
      else if c.ki < 0 ∨ c.kii < 0 then some .ctrlGainNegative
      else if ¬ (0 < c.nominalOutputHz ∧ 0 < c.controlRateHz ∧ 0 ≤ c.ppmRange ∧ 1 ≤ c.countWidth ∧
        E + c.ppmRange / 1000000 * E < 2 ^ c.countWidth) then some .pfdConfig
      else if c.variant = .sdm ∧ ¬ (sdmInMin c ≤ sdmNominal c ∧ sdmNominal c ≤ sdmInMax c) then some .sdmProfile
      else if c.variant = .lut ∧ ¬ (∀ i < c.lut.length - 1,
        ((c.lut.getD i 0).extractLsb' 8 8).toNat.succ * ((c.lut.getD (i + 1) 0).extractLsb' 0 8).toNat.succ ≤
        ((c.lut.getD (i + 1) 0).extractLsb' 8 8).toNat.succ * ((c.lut.getD i 0).extractLsb' 0 8).toNat.succ)
        then some .lutNotMonotonic
      else none

/-! ## Refusals and the exception -/

/-- 60_exceptions R114, 30_encoding R46 (c): before the first `RESET` and while a fault is latched, every operation but `RESET`
is refused. -/
def Obligations.OnlyResetStepsWhenNotRunning : Prop :=
  ∀ (s : State) (i : Instr), ¬ s.Running → i ≠ .reset → ∃ r, exec i s = .refused r

/-- 30_encoding R46 (a): the reserved selector is refused in every state. -/
def Obligations.ReservedSelectorIsRefused : Prop := ∀ s : State, exec .reserved s = .refused .reservedSelector

/-- 30_encoding R46 (b), (d): an operation of the other variant, and a period fraction that is not positive, are refused.
Where both hold, that the variant's refusal is named is the model's order, log 20. -/
def Obligations.WrongVariantAndFractionAreRefused : Prop :=
  ∀ s : State, s.Running →
    (s.cfg.variant = .sdm → ∀ e fl v x n pf, exec (.ctrlLut e fl) s = .refused .wrongVariant ∧
      exec (.lutGetFreq v x) s = .refused .wrongVariant ∧ exec (.stepLut n pf) s = .refused .wrongVariant) ∧
    (s.cfg.variant = .lut → ∀ e fl v n pf, exec (.ctrlSdm e fl) s = .refused .wrongVariant ∧
      exec (.sdmSetPoint v) s = .refused .wrongVariant ∧ exec .sdmTick s = .refused .wrongVariant ∧
      exec (.stepSdm n pf) s = .refused .wrongVariant) ∧
    (∀ n (q : Rat), q ≤ 0 → exec (.pfdGetError n (some q)) s = .refused .periodFractionNotPositive ∧
      (s.cfg.variant = .lut → exec (.stepLut n (some q)) s = .refused .periodFractionNotPositive) ∧
      (s.cfg.variant = .sdm → exec (.stepSdm n (some q)) s = .refused .periodFractionNotPositive))

/-- 60_exceptions R111: whatever operation other than `RESET` leaves a fault, it leaves every other register as it was before
the operation, and its `fault` result, where it has that port, is 1.
The bits `started` and `faultSeen` are the model's own, logs 4 and 8. -/
def Obligations.ExceptionIsPrecise : Prop :=
  ∀ (s t : State) (i : Instr), exec i s = .next t → i ≠ .reset → t.fault = true →
    t.regs = s.regs ∧ t.cfg = s.cfg ∧ t.started = true ∧ t.faultSeen = true ∧
    ((∃ v, t.result = .freq v true) ∨ (∃ v x, i = .lutGetFreq v x) ∨ i = .sdmTick ∨ ∃ n pf, i = .stepLut n pf)

/-- 45_orchestrator_system R107 (d), 60_exceptions R113: from a running state of the invariant, no operation but `RESET` and
`PLL_UPDATE_ALL` raises, and none stops with the model's fault.
The spec marks R107 as its own inference. -/
def Obligations.SteadyStateNeverRaises : Prop :=
  ∀ (s : State) (i : Instr), s.Inv → s.Running → i ≠ .reset → (∀ F R OD ACD f p, i ≠ .pllUpdateAll F R OD ACD f p) →
    (∃ t, exec i s = .next t ∧ t.fault = false) ∨ (∃ r, exec i s = .refused r)

/-- 60_exceptions R115: the record that a fault occurred is never cleared, and a latched fault is cleared by `RESET` alone,
under a valid configuration.
The record is the model's own, log 8. -/
def Obligations.FaultRecordIsSticky : Prop :=
  ∀ (s t : State) (i : Instr), exec i s = .next t →
    (s.faultSeen = true → t.faultSeen = true) ∧
    (s.fault = true → t.fault = false → i = .reset ∧ ConfigValid s.cfg)

/-! ## Invariants -/

/-- 10_state R20, R21, R22, R23, 42_controller R76, 43_lut_dco R85 (c): every step keeps the invariant.
The spec marks R76 and R85 as its own inference; the fault on record is log 8. -/
def Obligations.EveryStepKeepsInvariant : Prop := ∀ s t : State, s.Inv → step s = .next t → t.Inv

/-- Where a run starts, the invariant holds: before the first `RESET`, for every configuration and every operation list
(70_reset_and_hazards R120; the registers are free values within their widths, log 4); and in the reset state of every valid
configuration (10_state R29), which runs and has no fault on record. `State.reset` is one such state; its configuration and
its `fault_cause` are the model's choice, logs 2 and 5. -/
def Obligations.ResetMeetsInvariant : Prop :=
  (∀ (c : Config) (ops : List Frame), (State.powerOn c ops).Inv) ∧
  (∀ c : Config, ConfigValid c → (State.afterReset c).Inv ∧ (State.afterReset c).Running ∧ (State.afterReset c).Unfaulted) ∧
  State.reset.Inv ∧ State.reset.Running ∧ State.reset.Unfaulted

/-- 00_scope R6, 20_memory R31, R39: no step changes the configuration, the lookup table in it: every table read gives what it
gave before. -/
def Obligations.EveryStepKeepsConfiguration : Prop :=
  ∀ s t : State, step s = .next t → t.cfg = s.cfg ∧ ∀ i, lutRead t.cfg i = lutRead s.cfg i

/-! ## Frames -/

/-- What the `PLL_` operations leave unchanged: the detector, controller and DCO registers (the DCO's cached frequency among
them), the configuration and its table, the host's list; all of `F, R, OD, ACD` but for `PLL_UPDATE_ALL`; all of `S.pll` but
`out_freq` for `PLL_CALC_FREQ`; `frac_en` for `PLL_UPDATE_ALL`. -/
def Obligations.PllOperationsFrame : Prop :=
  ∀ (s t : State),
    let kept := t.cfg = s.cfg ∧ t.pfd = s.pfd ∧ t.ctrl = s.ctrl ∧ t.dco = s.dco ∧ t.sdm = s.sdm ∧
      t.started = s.started ∧ t.input = s.input ∧ ∀ a, lutRead t.cfg a = lutRead s.cfg a
    let integers := t.pll.F = s.pll.F ∧ t.pll.R = s.pll.R ∧ t.pll.OD = s.pll.OD ∧ t.pll.ACD = s.pll.ACD
    (∀ F R OD ACD f p, exec (.pllUpdateAll F R OD ACD f p) s = .next t → kept ∧ t.pll.fracEn = s.pll.fracEn) ∧
    (∀ f p en, exec (.pllUpdateFrac f p en) s = .next t → kept ∧ integers) ∧
    (∀ w, exec (.pllUpdateFracReg w) s = .next t → kept ∧ integers) ∧
    (exec .pllCalcFreq s = .next t →
      kept ∧ integers ∧ t.pll.f = s.pll.f ∧ t.pll.p = s.pll.p ∧ t.pll.fracEn = s.pll.fracEn)

/-- What the detector, the controller, the set-point write, the SDM control period and `OBSERVE` leave unchanged: `S.pll`,
`S.dco`, both fault registers, the configuration and its table, and every register but the ones each is given. -/
def Obligations.DetectorAndControllerFrame : Prop :=
  ∀ (s t : State),
    let kept := t.cfg = s.cfg ∧ t.pll = s.pll ∧ t.dco = s.dco ∧ t.fault = s.fault ∧ t.faultCause = s.faultCause ∧
      t.faultSeen = s.faultSeen ∧ t.started = s.started ∧ t.input = s.input ∧ ∀ a, lutRead t.cfg a = lutRead s.cfg a
    let filter := t.ctrl.iirY = s.ctrl.iirY
    (∀ n pf, exec (.pfdGetError n pf) s = .next t → kept ∧ t.ctrl = s.ctrl ∧ t.sdm = s.sdm) ∧
    (∀ e fl, exec (.ctrlCore e fl) s = .next t → kept ∧ t.pfd = s.pfd ∧ t.sdm = s.sdm ∧ filter) ∧
    (∀ e fl, exec (.ctrlLut e fl) s = .next t → kept ∧ t.pfd = s.pfd ∧ t.sdm = s.sdm ∧ filter) ∧
    (∀ e fl, exec (.ctrlSdm e fl) s = .next t → kept ∧ t.pfd = s.pfd ∧ t.sdm = s.sdm) ∧
    (∀ v, exec (.sdmSetPoint v) s = .next t → kept ∧ t.pfd = s.pfd ∧ t.ctrl = s.ctrl ∧
      t.sdm = { s.sdm with setpoint := v }) ∧
    (∀ n pf, exec (.stepSdm n pf) s = .next t → kept ∧ t.sdm = { s.sdm with setpoint := t.sdm.setpoint }) ∧
    (exec .observe s = .next t → kept ∧ t.pfd = s.pfd ∧ t.ctrl = s.ctrl ∧ t.sdm = s.sdm ∧ t.draws = s.draws)

/-- What the DCO's operations and the LUT control period leave unchanged: `F, R, OD, ACD`, the configuration and its table, and
every register but the ones each is given. -/
def Obligations.OscillatorOperationsFrame : Prop :=
  ∀ (s t : State),
    let kept := t.cfg = s.cfg ∧ t.pll.F = s.pll.F ∧ t.pll.R = s.pll.R ∧ t.pll.OD = s.pll.OD ∧
      t.pll.ACD = s.pll.ACD ∧ t.started = s.started ∧ t.input = s.input ∧ ∀ a, lutRead t.cfg a = lutRead s.cfg a
    (∀ v x, exec (.lutGetFreq v x) s = .next t → kept ∧ t.pfd = s.pfd ∧ t.ctrl = s.ctrl ∧ t.sdm = s.sdm) ∧
    (exec .sdmTick s = .next t → kept ∧ t.pfd = s.pfd ∧ t.ctrl = s.ctrl ∧ t.sdm.setpoint = s.sdm.setpoint) ∧
    (∀ n pf, exec (.stepLut n pf) s = .next t → kept ∧ t.sdm = s.sdm ∧ t.ctrl.iirY = s.ctrl.iirY)
end

