-- ==== Sys2Proof/Laws/State.lean ====
section
/-! SUPPORT. What each update of the state leaves in each field: one lemma per field per update. -/

namespace Sys2Proof.Machine.State

@[simp] theorem setPll_cfg (s : State) (r : PllRegs) : (s.setPll r).cfg = s.cfg := rfl
@[simp] theorem setPll_pll (s : State) (r : PllRegs) : (s.setPll r).pll = r := rfl
@[simp] theorem setPll_pfd (s : State) (r : PllRegs) : (s.setPll r).pfd = s.pfd := rfl
@[simp] theorem setPll_ctrl (s : State) (r : PllRegs) : (s.setPll r).ctrl = s.ctrl := rfl
@[simp] theorem setPll_dco (s : State) (r : PllRegs) : (s.setPll r).dco = s.dco := rfl
@[simp] theorem setPll_sdm (s : State) (r : PllRegs) : (s.setPll r).sdm = s.sdm := rfl
@[simp] theorem setPll_fault (s : State) (r : PllRegs) : (s.setPll r).fault = s.fault := rfl
@[simp] theorem setPll_faultCause (s : State) (r : PllRegs) : (s.setPll r).faultCause = s.faultCause := rfl
@[simp] theorem setPll_started (s : State) (r : PllRegs) : (s.setPll r).started = s.started := rfl
@[simp] theorem setPll_faultSeen (s : State) (r : PllRegs) : (s.setPll r).faultSeen = s.faultSeen := rfl
@[simp] theorem setPll_draws (s : State) (r : PllRegs) : (s.setPll r).draws = s.draws := rfl
@[simp] theorem setPll_result (s : State) (r : PllRegs) : (s.setPll r).result = s.result := rfl
@[simp] theorem setPll_input (s : State) (r : PllRegs) : (s.setPll r).input = s.input := rfl

@[simp] theorem setPfd_cfg (s : State) (r : PfdRegs) : (s.setPfd r).cfg = s.cfg := rfl
@[simp] theorem setPfd_pll (s : State) (r : PfdRegs) : (s.setPfd r).pll = s.pll := rfl
@[simp] theorem setPfd_pfd (s : State) (r : PfdRegs) : (s.setPfd r).pfd = r := rfl
@[simp] theorem setPfd_ctrl (s : State) (r : PfdRegs) : (s.setPfd r).ctrl = s.ctrl := rfl
@[simp] theorem setPfd_dco (s : State) (r : PfdRegs) : (s.setPfd r).dco = s.dco := rfl
@[simp] theorem setPfd_sdm (s : State) (r : PfdRegs) : (s.setPfd r).sdm = s.sdm := rfl
@[simp] theorem setPfd_fault (s : State) (r : PfdRegs) : (s.setPfd r).fault = s.fault := rfl
@[simp] theorem setPfd_faultCause (s : State) (r : PfdRegs) : (s.setPfd r).faultCause = s.faultCause := rfl
@[simp] theorem setPfd_started (s : State) (r : PfdRegs) : (s.setPfd r).started = s.started := rfl
@[simp] theorem setPfd_faultSeen (s : State) (r : PfdRegs) : (s.setPfd r).faultSeen = s.faultSeen := rfl
@[simp] theorem setPfd_draws (s : State) (r : PfdRegs) : (s.setPfd r).draws = s.draws := rfl
@[simp] theorem setPfd_result (s : State) (r : PfdRegs) : (s.setPfd r).result = s.result := rfl
@[simp] theorem setPfd_input (s : State) (r : PfdRegs) : (s.setPfd r).input = s.input := rfl

@[simp] theorem setCtrl_cfg (s : State) (r : CtrlRegs) : (s.setCtrl r).cfg = s.cfg := rfl
@[simp] theorem setCtrl_pll (s : State) (r : CtrlRegs) : (s.setCtrl r).pll = s.pll := rfl
@[simp] theorem setCtrl_pfd (s : State) (r : CtrlRegs) : (s.setCtrl r).pfd = s.pfd := rfl
@[simp] theorem setCtrl_ctrl (s : State) (r : CtrlRegs) : (s.setCtrl r).ctrl = r := rfl
@[simp] theorem setCtrl_dco (s : State) (r : CtrlRegs) : (s.setCtrl r).dco = s.dco := rfl
@[simp] theorem setCtrl_sdm (s : State) (r : CtrlRegs) : (s.setCtrl r).sdm = s.sdm := rfl
@[simp] theorem setCtrl_fault (s : State) (r : CtrlRegs) : (s.setCtrl r).fault = s.fault := rfl
@[simp] theorem setCtrl_faultCause (s : State) (r : CtrlRegs) : (s.setCtrl r).faultCause = s.faultCause := rfl
@[simp] theorem setCtrl_started (s : State) (r : CtrlRegs) : (s.setCtrl r).started = s.started := rfl
@[simp] theorem setCtrl_faultSeen (s : State) (r : CtrlRegs) : (s.setCtrl r).faultSeen = s.faultSeen := rfl
@[simp] theorem setCtrl_draws (s : State) (r : CtrlRegs) : (s.setCtrl r).draws = s.draws := rfl
@[simp] theorem setCtrl_result (s : State) (r : CtrlRegs) : (s.setCtrl r).result = s.result := rfl
@[simp] theorem setCtrl_input (s : State) (r : CtrlRegs) : (s.setCtrl r).input = s.input := rfl

@[simp] theorem setDco_cfg (s : State) (r : DcoRegs) : (s.setDco r).cfg = s.cfg := rfl
@[simp] theorem setDco_pll (s : State) (r : DcoRegs) : (s.setDco r).pll = s.pll := rfl
@[simp] theorem setDco_pfd (s : State) (r : DcoRegs) : (s.setDco r).pfd = s.pfd := rfl
@[simp] theorem setDco_ctrl (s : State) (r : DcoRegs) : (s.setDco r).ctrl = s.ctrl := rfl
@[simp] theorem setDco_dco (s : State) (r : DcoRegs) : (s.setDco r).dco = r := rfl
@[simp] theorem setDco_sdm (s : State) (r : DcoRegs) : (s.setDco r).sdm = s.sdm := rfl
@[simp] theorem setDco_fault (s : State) (r : DcoRegs) : (s.setDco r).fault = s.fault := rfl
@[simp] theorem setDco_faultCause (s : State) (r : DcoRegs) : (s.setDco r).faultCause = s.faultCause := rfl
@[simp] theorem setDco_started (s : State) (r : DcoRegs) : (s.setDco r).started = s.started := rfl
@[simp] theorem setDco_faultSeen (s : State) (r : DcoRegs) : (s.setDco r).faultSeen = s.faultSeen := rfl
@[simp] theorem setDco_draws (s : State) (r : DcoRegs) : (s.setDco r).draws = s.draws := rfl
@[simp] theorem setDco_result (s : State) (r : DcoRegs) : (s.setDco r).result = s.result := rfl
@[simp] theorem setDco_input (s : State) (r : DcoRegs) : (s.setDco r).input = s.input := rfl

@[simp] theorem setSdm_cfg (s : State) (r : SdmRegs) : (s.setSdm r).cfg = s.cfg := rfl
@[simp] theorem setSdm_pll (s : State) (r : SdmRegs) : (s.setSdm r).pll = s.pll := rfl
@[simp] theorem setSdm_pfd (s : State) (r : SdmRegs) : (s.setSdm r).pfd = s.pfd := rfl
@[simp] theorem setSdm_ctrl (s : State) (r : SdmRegs) : (s.setSdm r).ctrl = s.ctrl := rfl
@[simp] theorem setSdm_dco (s : State) (r : SdmRegs) : (s.setSdm r).dco = s.dco := rfl
@[simp] theorem setSdm_sdm (s : State) (r : SdmRegs) : (s.setSdm r).sdm = r := rfl
@[simp] theorem setSdm_fault (s : State) (r : SdmRegs) : (s.setSdm r).fault = s.fault := rfl
@[simp] theorem setSdm_faultCause (s : State) (r : SdmRegs) : (s.setSdm r).faultCause = s.faultCause := rfl
@[simp] theorem setSdm_started (s : State) (r : SdmRegs) : (s.setSdm r).started = s.started := rfl
@[simp] theorem setSdm_faultSeen (s : State) (r : SdmRegs) : (s.setSdm r).faultSeen = s.faultSeen := rfl
@[simp] theorem setSdm_draws (s : State) (r : SdmRegs) : (s.setSdm r).draws = s.draws := rfl
@[simp] theorem setSdm_result (s : State) (r : SdmRegs) : (s.setSdm r).result = s.result := rfl
@[simp] theorem setSdm_input (s : State) (r : SdmRegs) : (s.setSdm r).input = s.input := rfl

@[simp] theorem setRegs_cfg (s : State) (r : Regs) : (s.setRegs r).cfg = s.cfg := rfl
@[simp] theorem setRegs_pll (s : State) (r : Regs) : (s.setRegs r).pll = r.pll := rfl
@[simp] theorem setRegs_pfd (s : State) (r : Regs) : (s.setRegs r).pfd = r.pfd := rfl
@[simp] theorem setRegs_ctrl (s : State) (r : Regs) : (s.setRegs r).ctrl = r.ctrl := rfl
@[simp] theorem setRegs_dco (s : State) (r : Regs) : (s.setRegs r).dco = r.dco := rfl
@[simp] theorem setRegs_sdm (s : State) (r : Regs) : (s.setRegs r).sdm = r.sdm := rfl
@[simp] theorem setRegs_fault (s : State) (r : Regs) : (s.setRegs r).fault = s.fault := rfl
@[simp] theorem setRegs_faultCause (s : State) (r : Regs) : (s.setRegs r).faultCause = s.faultCause := rfl
@[simp] theorem setRegs_started (s : State) (r : Regs) : (s.setRegs r).started = s.started := rfl
@[simp] theorem setRegs_faultSeen (s : State) (r : Regs) : (s.setRegs r).faultSeen = s.faultSeen := rfl
@[simp] theorem setRegs_draws (s : State) (r : Regs) : (s.setRegs r).draws = s.draws := rfl
@[simp] theorem setRegs_result (s : State) (r : Regs) : (s.setRegs r).result = s.result := rfl
@[simp] theorem setRegs_input (s : State) (r : Regs) : (s.setRegs r).input = s.input := rfl

@[simp] theorem present_cfg (s : State) (r : Result) : (s.present r).cfg = s.cfg := rfl
@[simp] theorem present_pll (s : State) (r : Result) : (s.present r).pll = s.pll := rfl
@[simp] theorem present_pfd (s : State) (r : Result) : (s.present r).pfd = s.pfd := rfl
@[simp] theorem present_ctrl (s : State) (r : Result) : (s.present r).ctrl = s.ctrl := rfl
@[simp] theorem present_dco (s : State) (r : Result) : (s.present r).dco = s.dco := rfl
@[simp] theorem present_sdm (s : State) (r : Result) : (s.present r).sdm = s.sdm := rfl
@[simp] theorem present_fault (s : State) (r : Result) : (s.present r).fault = s.fault := rfl
@[simp] theorem present_faultCause (s : State) (r : Result) : (s.present r).faultCause = s.faultCause := rfl
@[simp] theorem present_started (s : State) (r : Result) : (s.present r).started = s.started := rfl
@[simp] theorem present_faultSeen (s : State) (r : Result) : (s.present r).faultSeen = s.faultSeen := rfl
@[simp] theorem present_draws (s : State) (r : Result) : (s.present r).draws = s.draws := rfl
@[simp] theorem present_result (s : State) (r : Result) : (s.present r).result = r := rfl
@[simp] theorem present_input (s : State) (r : Result) : (s.present r).input = s.input := rfl

@[simp] theorem drawn_cfg (s : State) : (s.drawn).cfg = s.cfg := rfl
@[simp] theorem drawn_pll (s : State) : (s.drawn).pll = s.pll := rfl
@[simp] theorem drawn_pfd (s : State) : (s.drawn).pfd = s.pfd := rfl
@[simp] theorem drawn_ctrl (s : State) : (s.drawn).ctrl = s.ctrl := rfl
@[simp] theorem drawn_dco (s : State) : (s.drawn).dco = s.dco := rfl
@[simp] theorem drawn_sdm (s : State) : (s.drawn).sdm = s.sdm := rfl
@[simp] theorem drawn_fault (s : State) : (s.drawn).fault = s.fault := rfl
@[simp] theorem drawn_faultCause (s : State) : (s.drawn).faultCause = s.faultCause := rfl
@[simp] theorem drawn_started (s : State) : (s.drawn).started = s.started := rfl
@[simp] theorem drawn_faultSeen (s : State) : (s.drawn).faultSeen = s.faultSeen := rfl
@[simp] theorem drawn_draws (s : State) : (s.drawn).draws = s.draws + 1 := rfl
@[simp] theorem drawn_result (s : State) : (s.drawn).result = s.result := rfl
@[simp] theorem drawn_input (s : State) : (s.drawn).input = s.input := rfl

@[simp] theorem latchFault_cfg (s : State) (c : Cause) : (s.latchFault c).cfg = s.cfg := rfl
@[simp] theorem latchFault_pll (s : State) (c : Cause) : (s.latchFault c).pll = s.pll := rfl
@[simp] theorem latchFault_pfd (s : State) (c : Cause) : (s.latchFault c).pfd = s.pfd := rfl
@[simp] theorem latchFault_ctrl (s : State) (c : Cause) : (s.latchFault c).ctrl = s.ctrl := rfl
@[simp] theorem latchFault_dco (s : State) (c : Cause) : (s.latchFault c).dco = s.dco := rfl
@[simp] theorem latchFault_sdm (s : State) (c : Cause) : (s.latchFault c).sdm = s.sdm := rfl
@[simp] theorem latchFault_fault (s : State) (c : Cause) : (s.latchFault c).fault = true := rfl
@[simp] theorem latchFault_faultCause (s : State) (c : Cause) : (s.latchFault c).faultCause = c := rfl
@[simp] theorem latchFault_started (s : State) (c : Cause) : (s.latchFault c).started = s.started := rfl
@[simp] theorem latchFault_faultSeen (s : State) (c : Cause) : (s.latchFault c).faultSeen = true := rfl
@[simp] theorem latchFault_draws (s : State) (c : Cause) : (s.latchFault c).draws = s.draws := rfl
@[simp] theorem latchFault_result (s : State) (c : Cause) : (s.latchFault c).result = s.result := rfl
@[simp] theorem latchFault_input (s : State) (c : Cause) : (s.latchFault c).input = s.input := rfl

@[simp] theorem raiseConfigurationError_cfg (s : State) (c : Cause) (r : Result) : (s.raiseConfigurationError c r).cfg = s.cfg := rfl
@[simp] theorem raiseConfigurationError_pll (s : State) (c : Cause) (r : Result) : (s.raiseConfigurationError c r).pll = s.pll := rfl
@[simp] theorem raiseConfigurationError_pfd (s : State) (c : Cause) (r : Result) : (s.raiseConfigurationError c r).pfd = s.pfd := rfl
@[simp] theorem raiseConfigurationError_ctrl (s : State) (c : Cause) (r : Result) : (s.raiseConfigurationError c r).ctrl = s.ctrl := rfl
@[simp] theorem raiseConfigurationError_dco (s : State) (c : Cause) (r : Result) : (s.raiseConfigurationError c r).dco = s.dco := rfl
@[simp] theorem raiseConfigurationError_sdm (s : State) (c : Cause) (r : Result) : (s.raiseConfigurationError c r).sdm = s.sdm := rfl
@[simp] theorem raiseConfigurationError_fault (s : State) (c : Cause) (r : Result) : (s.raiseConfigurationError c r).fault = true := rfl
@[simp] theorem raiseConfigurationError_faultCause (s : State) (c : Cause) (r : Result) : (s.raiseConfigurationError c r).faultCause = c := rfl
@[simp] theorem raiseConfigurationError_started (s : State) (c : Cause) (r : Result) : (s.raiseConfigurationError c r).started = s.started := rfl
@[simp] theorem raiseConfigurationError_faultSeen (s : State) (c : Cause) (r : Result) : (s.raiseConfigurationError c r).faultSeen = true := rfl
@[simp] theorem raiseConfigurationError_draws (s : State) (c : Cause) (r : Result) : (s.raiseConfigurationError c r).draws = s.draws + 1 := rfl
@[simp] theorem raiseConfigurationError_result (s : State) (c : Cause) (r : Result) : (s.raiseConfigurationError c r).result = r := rfl
@[simp] theorem raiseConfigurationError_input (s : State) (c : Cause) (r : Result) : (s.raiseConfigurationError c r).input = s.input := rfl

end Sys2Proof.Machine.State
end

