-- ==== Sys2Proof/Laws/Ops.lean ====
section
/-! SUPPORT. What the shared operations can do: the conditions under which an operation has a step, how it ends, and what
writing `S.pll` and the DCO's parts can leave. -/

namespace Sys2Proof.Machine

theorem whenRunning_of_running {s : State} (h : s.Running) (k : Host.Outcome State Fault Refusal) :
    whenRunning s k = k := by
  simp [whenRunning, h.1, h.2]

/-- An operation other than `RESET` that answers a next state was running. -/
theorem whenRunning_eq_next {s t : State} {k : Host.Outcome State Fault Refusal} :
    whenRunning s k = .next t ↔ s.Running ∧ k = .next t := by
  unfold whenRunning
  cases hs : s.started <;> cases hf : s.fault <;> simp [State.Running, hs, hf]

theorem whenRunning_of_not_running {s : State} (h : ¬ s.Running) (k : Host.Outcome State Fault Refusal) :
    ∃ r, whenRunning s k = .refused r := by
  unfold whenRunning
  split
  · exact ⟨_, rfl⟩
  · split
    · exact ⟨_, rfl⟩
    · simp_all

theorem whenVariant_of_running {s : State} {v : Variant} (h : s.Running) (hv : s.cfg.variant = v)
    (k : Host.Outcome State Fault Refusal) : whenVariant v s k = k := by
  simp [whenVariant, whenRunning_of_running h, hv]

theorem whenVariant_of_other {s : State} {v : Variant} (h : s.Running) (hv : s.cfg.variant ≠ v)
    (k : Host.Outcome State Fault Refusal) : whenVariant v s k = .refused .wrongVariant := by
  simp [whenVariant, whenRunning_of_running h, hv]

theorem whenVariant_eq_next {s t : State} {v : Variant} {k : Host.Outcome State Fault Refusal} :
    whenVariant v s k = .next t ↔ s.Running ∧ s.cfg.variant = v ∧ k = .next t := by
  unfold whenVariant
  rw [whenRunning_eq_next]
  by_cases hv : s.cfg.variant = v <;> simp [hv]

theorem whenPositive_of_positive {pf : Option Rat} (h : 0 < pf.getD 1) (k : Host.Outcome State Fault Refusal) :
    whenPositive pf k = k := if_pos h

theorem whenPositive_eq_next {pf : Option Rat} {t : State} {k : Host.Outcome State Fault Refusal} :
    whenPositive pf k = .next t ↔ 0 < pf.getD 1 ∧ k = .next t := by
  unfold whenPositive periodFraction
  by_cases h : 0 < pf.getD 1 <;> simp [h]

@[simp] theorem commit_ok (s t : State) (u : Result) : commit s u (.ok t) = .next t := rfl

@[simp] theorem commit_raises (s : State) (u : Result) (c : Cause) :
    commit s u (.error (.raises c)) = .next (s.raiseConfigurationError c u) := rfl

/-- An operation that answers a next state computed it, or took the exception in the state it began in (R111). -/
theorem commit_eq_next {s t : State} {u : Result} {r : Except Trap State} :
    commit s u r = .next t ↔ r = .ok t ∨ ∃ c, r = .error (.raises c) ∧ s.raiseConfigurationError c u = t := by
  rcases r with ⟨c⟩ | ⟨x⟩
  · cases c <;> simp [commit]
  · simp [commit]

theorem map_eq_ok {f : State → State} {r : Except Trap State} {t : State} :
    f <$> r = .ok t ↔ ∃ u, r = .ok u ∧ f u = t := by
  cases r <;> simp [Functor.map, Except.map]

theorem map_eq_error {f : State → State} {r : Except Trap State} {e : Trap} :
    f <$> r = .error e ↔ r = .error e := by
  cases r <;> simp [Functor.map, Except.map]

@[simp] theorem map_ok (f : State → State) (t : State) :
    f <$> (.ok t : Except Trap State) = .ok (f t) := rfl

@[simp] theorem map_error (f : State → State) (e : Trap) :
    f <$> (.error e : Except Trap State) = .error e := rfl

/-- `CalcFrequency` returns the formula's value exactly where no check fails (R50). -/
theorem calcFrequency_eq_ok {hz v : Hz} {q : PllSetting} :
    calcFrequency hz q = .ok v ↔ settingError hz q = none ∧ v = outputHz hz q := by
  unfold calcFrequency
  cases h : settingError hz q <;> simp [eq_comm]

theorem calcFrequency_eq_error {hz : Hz} {q : PllSetting} {c : Cause} :
    calcFrequency hz q = .error c ↔ settingError hz q = some c := by
  unfold calcFrequency
  cases h : settingError hz q <;> simp

/-- The checks of `CalcFrequency` do not read the fraction (R53). -/
theorem settingError_fraction (hz : Hz) (q : PllSetting) (f p : BitVec 8) (en : Bool) :
    settingError hz { q with f := f, p := p, en := en } = settingError hz q := rfl

/-- Writing `S.pll` either writes the fields with their frequency or raises the first failing check. -/
theorem pllWrite_eq_ok {r : PllRegs} {s t : State} :
    pllWrite r s = .ok t ↔
      settingError (inputHz s.cfg) r.setting = none ∧
      t = s.setPll { r with outFreq := outputHz (inputHz s.cfg) r.setting } := by
  unfold pllWrite calcFrequency
  cases h : settingError (inputHz s.cfg) r.setting <;> simp [eq_comm]

theorem pllWrite_of_legal {r : PllRegs} {s : State} (h : settingError (inputHz s.cfg) r.setting = none) :
    pllWrite r s = .ok (s.setPll { r with outFreq := outputHz (inputHz s.cfg) r.setting }) :=
  pllWrite_eq_ok.2 ⟨h, rfl⟩

theorem pllWrite_eq_error {r : PllRegs} {s : State} {e : Trap} :
    pllWrite r s = .error e ↔ ∃ c, settingError (inputHz s.cfg) r.setting = some c ∧ e = .raises c := by
  unfold pllWrite calcFrequency
  cases h : settingError (inputHz s.cfg) r.setting <;> simp [eq_comm]

/-- A fractional update of a legal setting writes the fraction with its frequency and cannot raise (R53). -/
theorem pllUpdateFrac_of_legal {s : State} (f p : BitVec 8) (en : Bool)
    (h : settingError (inputHz s.cfg) s.pll.setting = none) :
    pllUpdateFrac f p en s = .ok (s.setPll { s.pll with
      f := f, p := p, fracEn := en
      outFreq := outputHz (inputHz s.cfg) { s.pll.setting with f := f, p := p, en := en } }) :=
  pllWrite_of_legal h

theorem pllUpdateFrac_eq_ok {s t : State} {f p : BitVec 8} {en : Bool} :
    pllUpdateFrac f p en s = .ok t ↔
      settingError (inputHz s.cfg) s.pll.setting = none ∧
      t = s.setPll { s.pll with
        f := f, p := p, fracEn := en
        outFreq := outputHz (inputHz s.cfg) { s.pll.setting with f := f, p := p, en := en } } :=
  pllWrite_eq_ok

end Sys2Proof.Machine
end

