-- ==== Sys2Proof/Laws/Frequency.lean ====
section
/-! SUPPORT. The frequency formula as `K * (F + 1 + frac)` (40_pll_register_model R55), and the table's order by its
frequencies (60_exceptions R112 check 7). -/

namespace Sys2Proof.Machine

theorem outputHz_eq_unit (hz : Hz) (q : PllSetting) : outputHz hz q = unitHz hz q * (q.F + 1 + fracPart q) := by
  unfold outputHz unitHz
  have h1 : (q.R : Rat) + 1 ≠ 0 := by positivity
  have h2 : (q.OD : Rat) + 1 ≠ 0 := by positivity
  have h3 : (q.ACD : Rat) + 1 ≠ 0 := by positivity
  field_simp

theorem unitHz_pos {hz : Hz} (h : 0 < hz) (q : PllSetting) : 0 < unitHz hz q := by
  unfold unitHz
  positivity

/-- Among settings with the same integer fields, the frequency is ordered as the fractional part. -/
theorem outputHz_le_iff {hz : Hz} (h : 0 < hz) (q : PllSetting) (f p f' p' : BitVec 8) (en en' : Bool) :
    outputHz hz { q with f := f, p := p, en := en } ≤ outputHz hz { q with f := f', p := p', en := en' } ↔
      fracPart { q with f := f, p := p, en := en } ≤ fracPart { q with f := f', p := p', en := en' } := by
  rw [outputHz_eq_unit, outputHz_eq_unit]
  constructor
  · intro hle
    have hm := le_of_mul_le_mul_left hle (unitHz_pos h q)
    simpa using hm
  · intro hle
    exact mul_le_mul_of_nonneg_left (by simpa using hle) (unitHz_pos h q).le

theorem fracPart_enabled_le_iff (q : PllSetting) (f p f' p' : BitVec 8) :
    fracPart { q with f := f, p := p, en := true } ≤ fracPart { q with f := f', p := p', en := true } ↔
      (f.toNat + 1) * (p'.toNat + 1) ≤ (f'.toNat + 1) * (p.toNat + 1) := by
  simp only [fracPart, if_true]
  rw [div_le_div_iff₀ (by positivity) (by positivity)]
  exact_mod_cast Iff.rfl

/-- A setting that passes the checks has its integer fields in range (R50, R20). -/
theorem settingError_eq_none {hz : Hz} {q : PllSetting} :
    settingError hz q = none ↔
      (1 ≤ q.F ∧ q.F ≤ 8191) ∧ q.R ≤ 63 ∧ q.OD ≤ 7 ∧ Config.vcoMinHz ≤ vcoHz hz q ∧ vcoHz hz q ≤ Config.vcoMaxHz := by
  unfold settingError
  split_ifs <;> simp_all

/-- The adjacent comparisons of R112 check 7 order the table as a whole (R31). -/
theorem tableMonotonic_pairwise {c : Config} :
    ∀ {l : List TableWord}, tableMonotonic c l = true → l.Pairwise (fun a b => entryHz c a ≤ entryHz c b)
  | [], _ => .nil
  | [_], _ => List.pairwise_singleton _ _
  | a :: b :: rest, h => by
    simp only [tableMonotonic, Bool.and_eq_true, decide_eq_true_eq] at h
    have ih := tableMonotonic_pairwise h.2
    refine List.pairwise_cons.2 ⟨fun x hx => ?_, ih⟩
    rcases List.mem_cons.1 hx with rfl | hx
    · exact h.1
    · exact h.1.trans ((List.pairwise_cons.1 ih).1 x hx)

/-- In a monotonic table the first entry is lowest and the last highest (43_lut_dco R85 (a)). -/
theorem tableMonotonic_bounds {c : Config} {l : List TableWord} (h : tableMonotonic c l = true) {w : TableWord}
    (hw : w ∈ l) (hne : l ≠ []) :
    entryHz c (l.head hne) ≤ entryHz c w ∧ entryHz c w ≤ entryHz c (l.getLast hne) := by
  have hp := tableMonotonic_pairwise h
  constructor
  · obtain ⟨a, rest, rfl⟩ := List.exists_cons_of_ne_nil hne
    rcases List.mem_cons.1 hw with rfl | hw
    · exact le_rfl
    · exact (List.pairwise_cons.1 hp).1 w hw
  · rw [← List.dropLast_append_getLast hne] at hw hp
    rcases List.mem_append.1 hw with hw | hw
    · exact (List.pairwise_append.1 hp).2.2 w hw _ (by simp)
    · rw [List.mem_singleton.1 hw]

end Sys2Proof.Machine
end

