-- ==== Sys2Proof/Laws/Validation.lean ====
section
/-! SUPPORT. A valid configuration passes every check of 60_exceptions R112. -/

namespace Sys2Proof.Machine

theorem configValid_iff {c : Config} :
    ConfigValid c ↔ paramError c = none ∧ settingError (inputHz c) (pll0 c) = none ∧ gainError c = none ∧
      pfdError c = none ∧ profileError c = none ∧ tableError c = none := by
  unfold ConfigValid configError
  cases paramError c <;> cases settingError (inputHz c) (pll0 c) <;> cases gainError c <;> cases pfdError c <;>
    cases profileError c <;> simp

theorem ConfigValid.inputHz_pos {c : Config} (h : ConfigValid c) : 0 < inputHz c := by
  have := (configValid_iff.1 h).1
  unfold paramError at this
  split_ifs at this with hc
  exact hc.1

theorem ConfigValid.windupSpan_pos {c : Config} (h : ConfigValid c) : 0 < windupSpan c := by
  have := (configValid_iff.1 h).1
  unfold paramError at this
  split_ifs at this with hc
  exact hc.2.1

theorem ConfigValid.tableSize_pos {c : Config} (h : ConfigValid c) (hv : c.variant = .lut) : 1 ≤ tableSize c := by
  have := (configValid_iff.1 h).1
  unfold paramError at this
  split_ifs at this with hc
  exact hc.2.2 hv

theorem ConfigValid.gains_nonneg {c : Config} (h : ConfigValid c) : 0 ≤ c.ki ∧ 0 ≤ c.kii := by
  have := (configValid_iff.1 h).2.2.1
  unfold gainError at this
  split_ifs at this with hc
  exact hc

theorem ConfigValid.pll0_legal {c : Config} (h : ConfigValid c) : settingError (inputHz c) (pll0 c) = none :=
  (configValid_iff.1 h).2.1

theorem ConfigValid.table_monotonic {c : Config} (h : ConfigValid c) (hv : c.variant = .lut) :
    tableMonotonic c c.lut = true := by
  have := (configValid_iff.1 h).2.2.2.2.2
  unfold tableError at this
  split_ifs at this with hc
  exact hc hv

/-- The reset fields hold `PLL0` unchanged: a valid `PLL0` fits the registers (R20, R29). -/
theorem resetPll_setting {c : Config} (h : ConfigValid c) : (resetPll c).setting = pll0 c := by
  have hq := settingError_eq_none.1 h.pll0_legal
  have h1 : (pll0 c).F % 8192 = (pll0 c).F := Nat.mod_eq_of_lt (by omega)
  have h2 : (pll0 c).R % 64 = (pll0 c).R := Nat.mod_eq_of_lt (by omega)
  have h3 : (pll0 c).OD % 8 = (pll0 c).OD := Nat.mod_eq_of_lt (by omega)
  simp [PllRegs.setting, resetPll, h1, h2, h3]

end Sys2Proof.Machine
end

