-- ==== Sys2Proof/Laws/Controller.lean ====
section
/-! SUPPORT. The clamps of the controller, what its calls write, and the filter (42_controller R70 to R77). -/

namespace Sys2Proof.Machine

theorem abs_clamp_le {v limit : Rat} (h : 0 ≤ limit) : |clamp v (-limit) limit| ≤ limit := by
  unfold clamp
  split_ifs with h1 h2
  · simp [abs_of_nonneg h]
  · simp [abs_of_nonneg h]
  · exact abs_le.2 ⟨not_lt.1 h1, not_lt.1 h2⟩

theorem clamp_of_mem {v lo hi : Rat} (h1 : lo ≤ v) (h2 : v ≤ hi) : clamp v lo hi = v := by
  simp [clamp, not_lt.2 h1, not_lt.2 h2]

theorem le_clamp {v lo hi : Rat} (h : lo ≤ hi) : lo ≤ clamp v lo hi := by
  unfold clamp
  split_ifs with h1 h2
  · exact le_rfl
  · exact h
  · exact not_lt.1 h1

theorem clamp_le {v lo hi : Rat} (h : lo ≤ hi) : clamp v lo hi ≤ hi := by
  unfold clamp
  split_ifs with h1 h2
  · exact h
  · exact le_rfl
  · exact not_lt.1 h2

/-- A clamped value lies within `span / gain` for every positive gain (R76 (a)). -/
theorem abs_clampWithin_le {c : Config} (h : ConfigValid c) {gain : Rat} (hg : 0 ≤ gain) (hz : gain ≠ 0) (v : Rat) :
    |clampWithin v (windupLimit c gain)| ≤ windupSpan c / gain := by
  simp only [windupLimit, if_pos hz, clampWithin]
  exact abs_clamp_le (div_nonneg h.windupSpan_pos.le hg)

/-- A zero is in every clamp interval of a valid configuration (R76 (b)). -/
theorem clampWithin_zero {c : Config} (h : ConfigValid c) {gain : Rat} (hg : 0 ≤ gain) :
    clampWithin 0 (windupLimit c gain) = 0 := by
  by_cases hz : gain = 0
  · simp [windupLimit, hz, clampWithin]
  · have hl : 0 ≤ windupSpan c / gain := div_nonneg h.windupSpan_pos.le hg
    simp only [windupLimit, ne_eq, hz, not_false_eq_true, if_true, clampWithin]
    exact clamp_of_mem (by linarith) hl

/-- After `CTRL_CORE` the accumulators are contained, whatever they were (R76 (a)). -/
theorem ctrlCore_windupContained {s : State} (h : ConfigValid s.cfg) (error : Rat) (fl : Bool) :
    (ctrlCore error fl s).WindupContained :=
  ⟨fun hz => abs_clampWithin_le h h.gains_nonneg.1 hz _, fun hz => abs_clampWithin_le h h.gains_nonneg.2 hz _⟩

/-- A `first_loop` call writes zeros (R71 (a), R76 (b)). -/
theorem ctrlCore_firstLoop {s : State} (h : ConfigValid s.cfg) (error : Rat) :
    ctrlCore error true s = s.setCtrl { s.ctrl with errorAccum := 0, errorAccumAccum := 0, totalError := 0 } := by
  have h1 : coreAccum s.cfg s.ctrl error true = 0 := by
    simp [coreAccum, usedError, clampWithin_zero h h.gains_nonneg.1]
  have h2 : coreAccumAccum s.cfg s.ctrl error true = 0 := by
    simp [coreAccumAccum, h1, clampWithin_zero h h.gains_nonneg.2]
  simp [ctrlCore, coreTotal, h1, h2, usedError]

@[simp] theorem ctrlCore_cfg (error : Rat) (fl : Bool) (s : State) : (ctrlCore error fl s).cfg = s.cfg := rfl

@[simp] theorem ctrlCore_iirY (error : Rat) (fl : Bool) (s : State) :
    (ctrlCore error fl s).ctrl.iirY = s.ctrl.iirY := rfl

/-- `CTRL_LUT` writes what the core writes; only the model's draw counter may differ (R74). -/
theorem ctrlLut_eq (error : Rat) (fl : Bool) (s : State) :
    ctrlLut error fl s = { ctrlCore error fl s with draws := if fl then s.draws + 1 else s.draws } := by
  cases fl <;> rfl

/-- The filter's step is the floor of an eighth of the difference (R77). -/
theorem filterStep_eq (y x : Int) : filterStep y x = y + (x - y) / 8 := rfl

end Sys2Proof.Machine
end

