-- ==== Sys2Proof/Laws/Dco.lean ====
section
/-! SUPPORT. The lock detector, the table read and what the DCO's operations write (43_lut_dco, 44_sdm_dco). -/

namespace Sys2Proof.Machine

/-- The lock registers after any sample are within their bounds (R23, R85 (c)). -/
theorem lockUpdate_legal (c : Config) (r : DcoRegs) (x : Sample) (h : r.lockCount ≤ c.lockCountThreshold)
    (hl : r.lockStatus = .locked → r.lockCount = 0) :
    (lockUpdate c r x).lockCount ≤ c.lockCountThreshold ∧
    ((lockUpdate c r x).lockStatus = .locked → (lockUpdate c r x).lockCount = 0) := by
  cases x
  · simp [lockUpdate]
  · simp [lockUpdate]
  · refine ⟨by simp only [lockUpdate]; omega, fun hx => ?_⟩
    by_cases h0 : r.lockCount - 1 = 0
    · exact h0
    · simp only [lockUpdate, if_neg h0] at hx
      simp [lockUpdate, hl hx]

theorem lockUpdate_lockCount_le (c : Config) (r : DcoRegs) (x : Sample) (h : r.lockCount ≤ c.lockCountThreshold) :
    (lockUpdate c r x).lockCount ≤ c.lockCountThreshold := by
  cases x <;> simp only [lockUpdate] <;> omega

/-- The clamp of R82, as the clamp of R8. -/
theorem lutClamped_eq (c : Config) (ctrl : Rat) : lutClamped c ctrl = clamp ctrl 0 ((tableSize c : Rat) - 1) := by
  unfold lutClamped lutSample clamp
  split_ifs <;> rfl

/-- The index is one of the table's, whatever the control value (R81, R82). -/
theorem lutIndex_mem {c : Config} (h : 1 ≤ tableSize c) (ctrl : Rat) :
    0 ≤ lutIndex c ctrl ∧ (lutIndex c ctrl).toNat < tableSize c := by
  have hr : (0 : Rat) ≤ (tableSize c : Rat) - 1 := by
    have : (1 : Rat) ≤ tableSize c := by exact_mod_cast h
    linarith
  have h0 : 0 ≤ lutIndex c ctrl := by
    unfold lutIndex
    rw [lutClamped_eq]
    exact Int.floor_nonneg.2 (le_clamp hr)
  refine ⟨h0, ?_⟩
  have h1 : lutIndex c ctrl < (tableSize c : Int) := by
    unfold lutIndex
    rw [lutClamped_eq, Int.floor_lt]
    have := clamp_le (v := ctrl) hr
    push_cast
    linarith
  omega

/-- A table read at an in-range index gives the entry (R31). -/
theorem lutRead_of_mem {c : Config} {i : Int} (h0 : 0 ≤ i) (h : i.toNat < tableSize c) :
    lutRead c i = some (c.lut[i.toNat]'h) := by
  unfold lutRead
  rw [if_neg (by omega)]
  exact List.getElem?_eq_getElem h

/-- `LutRead` finds an entry for every control value, where there is a table (R31). -/
theorem lutRead_lutIndex {c : Config} (h : 1 ≤ tableSize c) (ctrl : Rat) :
    ∃ w, lutRead c (lutIndex c ctrl) = some w ∧ c.lut[(lutIndex c ctrl).toNat]? = some w ∧ w ∈ c.lut :=
  have hm := lutIndex_mem h ctrl
  ⟨_, lutRead_of_mem hm.1 hm.2, List.getElem?_eq_getElem hm.2, List.getElem_mem hm.2⟩

/-- What a successful `LUT_GET_FREQ` has written (R81). -/
theorem lutGetFreq_eq_ok {s t : State} {v : Bool} {ctrl : Rat} :
    lutGetFreq v ctrl s = .ok t ↔
      (v = false ∧ t = s) ∨
      (v = true ∧ ∃ w, lutRead s.cfg (lutIndex s.cfg ctrl) = some w ∧
        settingError (inputHz s.cfg) s.pll.setting = none ∧
        t = cacheFreq ((s.setDco (lockUpdate s.cfg s.dco (lutSample s.cfg ctrl))).setPll { s.pll with
          f := wordF w, p := wordP w, fracEn := true
          outFreq := outputHz (inputHz s.cfg) { s.pll.setting with f := wordF w, p := wordP w, en := true } })) := by
  cases v
  · simp [lutGetFreq, eq_comm]
  · cases hr : lutRead s.cfg (lutIndex s.cfg ctrl) with
    | none => simp [lutGetFreq, hr]
    | some w =>
      have he : lutGetFreq true ctrl s =
          cacheFreq <$> pllUpdateFrac (wordF w) (wordP w) true
            (s.setDco (lockUpdate s.cfg s.dco (lutSample s.cfg ctrl))) := by
        simp [lutGetFreq, hr]
      rw [he, map_eq_ok]
      constructor
      · rintro ⟨u, hu, rfl⟩
        obtain ⟨h1, rfl⟩ := pllUpdateFrac_eq_ok.1 hu
        exact .inr ⟨rfl, w, rfl, h1, rfl⟩
      · rintro (⟨h, -⟩ | ⟨-, w', hw, h1, rfl⟩)
        · simp at h
        · cases hw
          exact ⟨_, pllUpdateFrac_eq_ok.2 ⟨h1, rfl⟩, rfl⟩

/-- What a successful `LUT_GET_FREQ` leaves unchanged (R81, R84): all but the fraction with its frequency, and the DCO. -/
theorem lutGetFreq_frame {s t : State} {v : Bool} {ctrl : Rat} (h : lutGetFreq v ctrl s = .ok t) :
    t = { s with
      pll := { s.pll with f := t.pll.f, p := t.pll.p, fracEn := t.pll.fracEn, outFreq := t.pll.outFreq }
      dco := t.dco } := by
  rcases lutGetFreq_eq_ok.1 h with ⟨-, rfl⟩ | ⟨-, w, -, -, rfl⟩ <;> rfl

/-- `LUT_GET_FREQ` fails only by an illegal setting, or by a table without the entry. -/
theorem lutGetFreq_of_legal {s : State} (v : Bool) (ctrl : Rat) (hn : 1 ≤ tableSize s.cfg)
    (hp : settingError (inputHz s.cfg) s.pll.setting = none) : ∃ t, lutGetFreq v ctrl s = .ok t := by
  cases v
  · exact ⟨s, rfl⟩
  · obtain ⟨w, hw, -, -⟩ := lutRead_lutIndex hn ctrl
    exact ⟨_, lutGetFreq_eq_ok.2 (.inr ⟨rfl, w, hw, hp, rfl⟩)⟩

/-- What a successful `SDM_TICK` has written (R93). -/
theorem sdmTick_eq_ok {s t : State} :
    sdmTick s = .ok t ↔
      settingError (inputHz s.cfg) s.pll.setting = none ∧
      t = cacheFreq (((s.setDco (lockUpdate s.cfg s.dco (sdmSample s.cfg s.sdm.setpoint))).setSdm { s.sdm with
          x1 := (tickUpdate s).x1, x2 := (tickUpdate s).x2, x3 := (tickUpdate s).x3
          lastStep := (tickUpdate s).step }).setPll { s.pll with
        f := stepF (tickUpdate s).step, p := Config.sdmP, fracEn := stepEn (tickUpdate s).step
        outFreq := outputHz (inputHz s.cfg) { s.pll.setting with
          f := stepF (tickUpdate s).step, p := Config.sdmP, en := stepEn (tickUpdate s).step } }) := by
  simp only [sdmTick, map_eq_ok, pllUpdateFrac_eq_ok]
  constructor
  · rintro ⟨u, ⟨h1, rfl⟩, rfl⟩
    exact ⟨h1, rfl⟩
  · rintro ⟨h1, rfl⟩
    exact ⟨_, ⟨h1, rfl⟩, rfl⟩

theorem sdmTick_of_legal {s : State} (hp : settingError (inputHz s.cfg) s.pll.setting = none) :
    ∃ t, sdmTick s = .ok t := ⟨_, sdmTick_eq_ok.2 ⟨hp, rfl⟩⟩

/-- The `f` field of a step is at most 7 (R92). -/
theorem stepF_le : ∀ k : Fin 9, (stepF k).toNat ≤ 7 := by decide

/-- The enable is clear exactly for step 0 (R92). -/
theorem stepEn_eq_false_iff : ∀ k : Fin 9, stepEn k = false ↔ k = 0 := by decide

/-- The multiplier's fraction at a step is an eighth of the step (R92). -/
theorem fracPart_step (q : PllSetting) (k : Fin 9) :
    fracPart { q with f := stepF k, p := Config.sdmP, en := stepEn k } = (k.val : Rat) / 8 := by
  simp only [fracPart]
  revert k
  decide +kernel

end Sys2Proof.Machine
end

