-- ==== Sys2Proof/Laws/Exec.lean ====
section
/-! SUPPORT. What each operation can do: for every operation but the ones whose step is a plain equation, the cases in which
it answers a next state, and that state. -/

namespace Sys2Proof.Machine

/-- An operation that ends by writing `S.pll` and presenting the frequency: it writes, or takes the exception. -/
theorem commit_pllWrite_eq_next {s t : State} {r : PllRegs} {u : Result} :
    commit s u (presentFreq <$> pllWrite r s) = .next t ↔
      (settingError (inputHz s.cfg) r.setting = none ∧
        t = presentFreq (s.setPll { r with outFreq := outputHz (inputHz s.cfg) r.setting })) ∨
      (∃ c, settingError (inputHz s.cfg) r.setting = some c ∧ t = s.raiseConfigurationError c u) := by
  rw [commit_eq_next, map_eq_ok]
  simp only [map_eq_error, pllWrite_eq_error, pllWrite_eq_ok]
  constructor
  · rintro (⟨_, ⟨h, rfl⟩, rfl⟩ | ⟨c, ⟨c', h, hc⟩, rfl⟩)
    · exact .inl ⟨h, rfl⟩
    · cases hc
      exact .inr ⟨c, h, rfl⟩
  · rintro (⟨h, rfl⟩ | ⟨c, h, rfl⟩)
    · exact .inl ⟨_, ⟨h, rfl⟩, rfl⟩
    · exact .inr ⟨c, ⟨c, h, rfl⟩, rfl⟩

theorem execPllUpdateAll_eq_next {s t : State} {F : BitVec 13} {R : BitVec 6} {OD : BitVec 3} {ACD : Nat}
    {f p : BitVec 8} :
    exec (.pllUpdateAll F R OD ACD f p) s = .next t ↔ s.Running ∧
      let r : PllRegs := { s.pll with F, R, OD, ACD, f, p }
      ((settingError (inputHz s.cfg) r.setting = none ∧
        t = presentFreq (s.setPll { r with outFreq := outputHz (inputHz s.cfg) r.setting })) ∨
      (∃ c, settingError (inputHz s.cfg) r.setting = some c ∧ t = s.raiseConfigurationError c (unspecifiedFreq s))) :=
  whenRunning_eq_next.trans (and_congr_right fun _ => commit_pllWrite_eq_next)

theorem execPllUpdateFrac_eq_next {s t : State} {f p : BitVec 8} {en : Bool} :
    exec (.pllUpdateFrac f p en) s = .next t ↔ s.Running ∧
      let r : PllRegs := { s.pll with f, p, fracEn := en }
      ((settingError (inputHz s.cfg) r.setting = none ∧
        t = presentFreq (s.setPll { r with outFreq := outputHz (inputHz s.cfg) r.setting })) ∨
      (∃ c, settingError (inputHz s.cfg) r.setting = some c ∧ t = s.raiseConfigurationError c (unspecifiedFreq s))) :=
  whenRunning_eq_next.trans (and_congr_right fun _ => commit_pllWrite_eq_next)

/-- `PLL_UPDATE_FRAC_REG` is `PLL_UPDATE_FRAC` of the word's fields (R54). -/
theorem execPllUpdateFracReg_eq (word : FracWord) (s : State) :
    exec (.pllUpdateFracReg word) s =
      exec (.pllUpdateFrac (fracWordF word) (fracWordP word) (fracWordEn s.cfg.fracEnBit word)) s := rfl

theorem execPllCalcFreq_eq_next {s t : State} :
    exec .pllCalcFreq s = .next t ↔ s.Running ∧
      ((settingError (inputHz s.cfg) s.pll.setting = none ∧
        t = presentFreq (s.setPll { s.pll with outFreq := outputHz (inputHz s.cfg) s.pll.setting })) ∨
      (∃ c, settingError (inputHz s.cfg) s.pll.setting = some c ∧
        t = s.raiseConfigurationError c (unspecifiedFreq s))) :=
  whenRunning_eq_next.trans (and_congr_right fun _ => commit_pllWrite_eq_next)

theorem execPfdGetError_eq_next {s t : State} {count : Nat} {pf : Option Rat} :
    exec (.pfdGetError count pf) s = .next t ↔ s.Running ∧ 0 < pf.getD 1 ∧
      t = (pfdSample count pf s).present
        (.pfdError (pfdSampleError count pf s) (outOfRange s.cfg (pfdSampleError count pf s))) := by
  refine whenRunning_eq_next.trans (and_congr_right fun _ => whenPositive_eq_next.trans (and_congr_right fun _ => ?_))
  simp [eq_comm, pfdSample]

theorem execCtrlCore_eq_next {s t : State} {error : Rat} {fl : Bool} :
    exec (.ctrlCore error fl) s = .next t ↔ s.Running ∧
      t = (ctrlCore error fl s).present (.totalError (coreTotal s.cfg s.ctrl error fl)) := by
  refine whenRunning_eq_next.trans (and_congr_right fun _ => ?_)
  simp [eq_comm, ctrlCore]

theorem execCtrlLut_eq_next {s t : State} {error : Rat} {fl : Bool} :
    exec (.ctrlLut error fl) s = .next t ↔ s.Running ∧ s.cfg.variant = .lut ∧
      t = (ctrlLut error fl s).present (.ctrl (!fl) (ctrlLutValue error fl s)) :=
  whenVariant_eq_next.trans (and_congr_right fun _ => and_congr_right fun _ => by simp [eq_comm])

theorem execCtrlSdm_eq_next {s t : State} {error : Rat} {fl : Bool} :
    exec (.ctrlSdm error fl) s = .next t ↔ s.Running ∧ s.cfg.variant = .sdm ∧
      t = (ctrlSdm error fl s).present (.sdmIn (ctrlSdmValue (ctrlSdm error fl s))) :=
  whenVariant_eq_next.trans (and_congr_right fun _ => and_congr_right fun _ => by simp [eq_comm])

/-- An operation that ends by presenting what a computation left: it left a state, or took the exception. -/
theorem commit_map_eq_next {s t : State} {u : Result} {f : State → State} {r : Except Trap State} :
    commit s u (f <$> r) = .next t ↔
      (∃ v, r = .ok v ∧ t = f v) ∨ (∃ c, r = .error (.raises c) ∧ t = s.raiseConfigurationError c u) := by
  rw [commit_eq_next, map_eq_ok]
  simp only [map_eq_error, eq_comm]

theorem execLutGetFreq_eq_next {s t : State} {v : Bool} {ctrl : Rat} :
    exec (.lutGetFreq v ctrl) s = .next t ↔ s.Running ∧ s.cfg.variant = .lut ∧
      ((∃ u, lutGetFreq v ctrl s = .ok u ∧ t = presentFreqLock u) ∨
      (∃ c, lutGetFreq v ctrl s = .error (.raises c) ∧ t = s.raiseConfigurationError c (unspecifiedFreqLock s))) :=
  whenVariant_eq_next.trans (and_congr_right fun _ => and_congr_right fun _ => commit_map_eq_next)

theorem execSdmSetPoint_eq_next {s t : State} {v : Int} :
    exec (.sdmSetPoint v) s = .next t ↔ s.Running ∧ s.cfg.variant = .sdm ∧ t = (sdmSetPoint v s).present .noPorts :=
  whenVariant_eq_next.trans (and_congr_right fun _ => and_congr_right fun _ => by simp [eq_comm])

theorem execSdmTick_eq_next {s t : State} :
    exec .sdmTick s = .next t ↔ s.Running ∧ s.cfg.variant = .sdm ∧
      ((∃ u, sdmTick s = .ok u ∧ t = presentTick u) ∨
      (∃ c, sdmTick s = .error (.raises c) ∧ t = s.raiseConfigurationError c (unspecifiedTick s))) :=
  whenVariant_eq_next.trans (and_congr_right fun _ => and_congr_right fun _ => commit_map_eq_next)

theorem execStepLut_eq_next {s t : State} {count : Nat} {pf : Option Rat} :
    exec (.stepLut count pf) s = .next t ↔ s.Running ∧ s.cfg.variant = .lut ∧ 0 < pf.getD 1 ∧
      ((∃ u, stepLut count pf s = .ok u ∧ t = presentFreqLock u) ∨
      (∃ c, stepLut count pf s = .error (.raises c) ∧ t = s.raiseConfigurationError c (unspecifiedFreqLock s))) :=
  whenVariant_eq_next.trans (and_congr_right fun _ => and_congr_right fun _ =>
    whenPositive_eq_next.trans (and_congr_right fun _ => commit_map_eq_next))

theorem execStepSdm_eq_next {s t : State} {count : Nat} {pf : Option Rat} :
    exec (.stepSdm count pf) s = .next t ↔ s.Running ∧ s.cfg.variant = .sdm ∧ 0 < pf.getD 1 ∧
      t = presentFreqLock (stepSdm count pf s) :=
  whenVariant_eq_next.trans (and_congr_right fun _ => and_congr_right fun _ =>
    whenPositive_eq_next.trans (and_congr_right fun _ => by simp [eq_comm]))

theorem execObserve_eq_next {s t : State} :
    exec .observe s = .next t ↔ s.Running ∧ t = s.present (observation s) :=
  whenRunning_eq_next.trans (and_congr_right fun _ => by simp [eq_comm])

/-- `RESET` answers a next state from every state (R100): the reset values, or a latched fault. -/
theorem execReset_eq_next {s t : State} :
    exec .reset s = .next t ↔
      (ConfigValid s.cfg ∧ t = { s.setRegs (resetRegs s.cfg) with
        fault := false, faultCause := Config.resetFaultCause s.cfg, started := true
        result := .freq (resetRegs s.cfg).pll.outFreq false }) ∨
      (∃ c, configError s.cfg = some c ∧
        t = { (s.setRegs (withinWidths s.cfg (Config.failedResetRegs s.cfg))).latchFault c with
          started := true
          result := .freq (Config.failedResetFreq s.cfg) true }) := by
  show execReset s = _ ↔ _
  unfold execReset ConfigValid
  cases h : configError s.cfg <;> simp [eq_comm]

/-- A step that answers a next state executed the operation at the head of the host's list. -/
theorem step_eq_next {s t : State} :
    step s = .next t ↔ ∃ fr rest, s.input = fr :: rest ∧ exec (decode fr) { s with input := rest } = .next t := by
  unfold step nextOperation
  cases h : s.input <;> simp

end Sys2Proof.Machine
end

