-- ==== Sys2Proof/Laws/PerInstr.lean ====
section
/-! SUPPORT. A statement about every operation as syntax: it is encoded under its own selector, and an operation a host can
present (30_encoding R42, R46) is never encoded under the reserved one (R40). -/

namespace Sys2Proof.Laws.Presentable

/-- The encoding of `i` carries `i`'s selector, and a well-formed `i` does not use the reserved selector. -/
def Statement (i : Instr) : Prop :=
  (encode i).op = selector i ∧ ∀ c : Config, i.wellFormed c = true → (encode i).op ≠ 0b1111

theorem reset : Statement .reset := ⟨rfl, fun _ _ => by decide⟩

theorem pllUpdateAll (F : BitVec 13) (R : BitVec 6) (OD : BitVec 3) (ACD : Nat) (f p : BitVec 8) :
    Statement (.pllUpdateAll F R OD ACD f p) :=
  ⟨rfl, fun _ _ => (by decide : selector (.pllUpdateAll 0 0 0 0 0 0) ≠ 0b1111)⟩

theorem pllUpdateFrac (f p : BitVec 8) (en : Bool) : Statement (.pllUpdateFrac f p en) :=
  ⟨rfl, fun _ _ => (by decide : selector (.pllUpdateFrac 0 0 false) ≠ 0b1111)⟩

theorem pllUpdateFracReg (word : FracWord) : Statement (.pllUpdateFracReg word) :=
  ⟨rfl, fun _ _ => (by decide : selector (.pllUpdateFracReg 0) ≠ 0b1111)⟩

theorem pllCalcFreq : Statement .pllCalcFreq := ⟨rfl, fun _ _ => by decide⟩

theorem pfdGetError (count : Nat) (pf : Option Rat) : Statement (.pfdGetError count pf) :=
  ⟨rfl, fun _ _ => (by decide : selector (.pfdGetError 0 none) ≠ 0b1111)⟩

theorem ctrlCore (error : Rat) (firstLoop : Bool) : Statement (.ctrlCore error firstLoop) :=
  ⟨rfl, fun _ _ => (by decide : selector (.ctrlCore 0 false) ≠ 0b1111)⟩

theorem ctrlLut (error : Rat) (firstLoop : Bool) : Statement (.ctrlLut error firstLoop) :=
  ⟨rfl, fun _ _ => (by decide : selector (.ctrlLut 0 false) ≠ 0b1111)⟩

theorem ctrlSdm (error : Rat) (firstLoop : Bool) : Statement (.ctrlSdm error firstLoop) :=
  ⟨rfl, fun _ _ => (by decide : selector (.ctrlSdm 0 false) ≠ 0b1111)⟩

theorem lutGetFreq (ctrlValid : Bool) (ctrl : Rat) : Statement (.lutGetFreq ctrlValid ctrl) :=
  ⟨rfl, fun _ _ => (by decide : selector (.lutGetFreq false 0) ≠ 0b1111)⟩

theorem sdmSetPoint (sdmIn : Int) : Statement (.sdmSetPoint sdmIn) :=
  ⟨rfl, fun _ _ => (by decide : selector (.sdmSetPoint 0) ≠ 0b1111)⟩

theorem sdmTick : Statement .sdmTick := ⟨rfl, fun _ _ => by decide⟩

theorem stepLut (count : Nat) (pf : Option Rat) : Statement (.stepLut count pf) :=
  ⟨rfl, fun _ _ => (by decide : selector (.stepLut 0 none) ≠ 0b1111)⟩

theorem stepSdm (count : Nat) (pf : Option Rat) : Statement (.stepSdm count pf) :=
  ⟨rfl, fun _ _ => (by decide : selector (.stepSdm 0 none) ≠ 0b1111)⟩

theorem observe : Statement .observe := ⟨rfl, fun _ _ => by decide⟩

theorem reserved : Statement .reserved := ⟨rfl, fun _ h => by cases h⟩

end Sys2Proof.Laws.Presentable
end

