-- ==== Sys2Proof/Laws/Safety.lean ====
section
/-! SUPPORT. The small lemmas of runs and of what a detector counts. -/

namespace Sys2Proof.Machine

@[simp] theorem execAll_nil (s : State) : execAll [] s = some ([], s) := rfl

theorem execAll_cons {i : Instr} {s t : State} (h : exec i s = .next t) (is : List Instr) :
    execAll (i :: is) s = (execAll is t).map fun (rs, u) => (t.result :: rs, u) := by
  simp [execAll, h]

/-- A run of two lists is the run of the second from where the first ends. -/
theorem execAll_append {xs ys : List Instr} {rs us : List Result} {s t u : State} (hx : execAll xs s = some (rs, t))
    (hy : execAll ys t = some (us, u)) : execAll (xs ++ ys) s = some (rs ++ us, u) := by
  induction xs generalizing s rs with
  | nil =>
    cases hx
    exact hy
  | cons i xs ih =>
    cases hi : exec i s with
    | next v =>
      rw [execAll_cons hi, Option.map_eq_some_iff] at hx
      obtain ⟨⟨qs, w⟩, hq, he⟩ := hx
      cases he
      simp [execAll_cons hi, ih hq]
    | fault _ => simp [execAll, hi] at hx
    | refused _ => simp [execAll, hi] at hx

@[simp] theorem edgesCounted_nil (c : Config) (last : Nat) : edgesCounted c last [] = 0 := rfl

@[simp] theorem edgesCounted_cons (c : Config) (last n : Nat) (ns : List Nat) :
    edgesCounted c last (n :: ns) = rawIncrement c last n + edgesCounted c n ns := rfl

@[simp] theorem presentedCounts_nil (c : Config) (counter : Nat) : presentedCounts c counter [] = [] := rfl

@[simp] theorem presentedCounts_cons (c : Config) (counter n : Nat) (ns : List Nat) :
    presentedCounts c counter (n :: ns) =
      (counter + n) % countModulus c :: presentedCounts c (counter + n) ns := rfl

end Sys2Proof.Machine
end

