-- ==== Sys2Proof/Tests/Slice0.lean ====
section
/-! SUPPORT. Tests of single operations against 95_test_vectors, and a witness for the hypotheses of every statement. -/

namespace Sys2Proof.Tests

open Sys2Proof.Machine

-- One test after the other: side by side, each holds a thread and its stack while the kernel evaluates.
set_option Elab.async false

/-- The configuration of program P3. -/
def sdmConfig : Config :=
  { Config.base with
    variant := .sdm, nominalOutputHz := 29491200, controlRateHz := 500, ppmRange := 1000, ki := 32
    lockCountThreshold := 3
    profiles := .replicate 4
      { inputHz := 24000000, pll0 := ⟨146, 0, 5, 4, 0, 7, false⟩, sdmNominal := 478151, sdmInMin := 60000
        sdmInMax := 980000, modulationRateHz := 1000000 } }

/-- Configuration A of T-PFD. -/
def pfdConfig : Config :=
  { Config.base with nominalOutputHz := 3072000, controlRateHz := 100, ppmRange := 1000 }

/-- The configuration of T-CTRL's first table (`WINDUP_SPAN` is `N = 8`). -/
def ctrlConfig : Config := { Config.base with kp := 1 / 2, ki := 1 / 4, kii := 1 / 8 }

/-- T-EXC row 4: two checks fail. -/
def badConfig : Config := { Config.base with lutPll0 := { Config.base.lutPll0 with F := 0 }, ki := -1 }

def lutState : State := .afterReset Config.base

def sdmState : State := .afterReset sdmConfig

/-- A state with a latched fault: after line 3 of program P5. -/
def faultState : State := lutState.latchFault .pllVcoRange

def withAccum (s : State) (a aa : Rat) : State := s.setCtrl { s.ctrl with errorAccum := a, errorAccumAccum := aa }

def withCount (s : State) (n : Nat) : State := s.setPfd { s.pfd with lastCount := n }

/-- The outcome is a next state of which `Q` holds. -/
def answers (o : Host.Outcome State Fault Refusal) (Q : State → Bool) : Bool :=
  match o with
  | .next t => Q t
  | .fault _ => false
  | .refused _ => false

/-- The outcome is the refusal `r`. -/
def refuses (o : Host.Outcome State Fault Refusal) (r : Refusal) : Bool :=
  match o with
  | .next _ => false
  | .fault _ => false
  | .refused r' => r' = r

/-- The result ports show the null sentinel (`ctrl_valid = 0`). -/
def isNull : Result → Bool
  | .ctrl v _ => !v
  | _ => false

theorem exists_of_answers {o : Host.Outcome State Fault Refusal} {Q : State → Bool} (h : answers o Q = true) :
    ∃ t, o = .next t ∧ Q t = true := by
  cases o with
  | next t => exact ⟨t, rfl, h⟩
  | fault _ => cases h
  | refused _ => cases h

/-! ## Well-formedness: one ill-formed operation for each check -/

theorem test_wf_count_too_wide :
    (Instr.pfdGetError 65536 none).wellFormed Config.base = false ∧
    (Instr.pfdGetError 65535 none).wellFormed Config.base = true := by decide +kernel

theorem test_wf_fraction_not_positive :
    (Instr.stepLut 1 (some 0)).wellFormed Config.base = false ∧
    (Instr.stepSdm 1 (some (-1))).wellFormed Config.base = false ∧
    (Instr.stepLut 1 (some (1 / 2))).wellFormed Config.base = true := by decide +kernel

theorem test_wf_reserved : Instr.reserved.wellFormed Config.base = false := rfl

/-! ## Decoding: selectors and ports written out from R40 and R41 -/

theorem test_decode_reset : decode { op := 0b0000 } = .reset := rfl

theorem test_decode_pll_update_all :
    decode { op := 0b0001, F := 505, R := 3, OD := 1, ACD := 30, f := 19, p := 21 } =
      .pllUpdateAll 505 3 1 30 19 21 := rfl

theorem test_decode_pll_update_frac :
    decode { op := 0b0010, f := 3, p := 7, en := 1 } = .pllUpdateFrac 3 7 true ∧
    decode { op := 0b0010, f := 3, p := 7, en := 0 } = .pllUpdateFrac 3 7 false := ⟨rfl, rfl⟩

theorem test_decode_pll_update_frac_reg :
    decode { op := 0b0011, word := 0x80000307 } = .pllUpdateFracReg 0x80000307 := rfl

theorem test_decode_pll_calc_freq : decode { op := 0b0100 } = .pllCalcFreq := rfl

theorem test_decode_pfd_get_error :
    decode { op := 0b0101, count := 31750, pf := some (1001 / 1000) } = .pfdGetError 31750 (some (1001 / 1000)) := rfl

theorem test_decode_ctrl_core :
    decode { op := 0b0110, error := 7, firstLoop := 1 } = .ctrlCore 7 true := rfl

theorem test_decode_ctrl_lut :
    decode { op := 0b0111, error := 4, firstLoop := 0 } = .ctrlLut 4 false := rfl

theorem test_decode_ctrl_sdm :
    decode { op := 0b1000, error := -5, firstLoop := 0 } = .ctrlSdm (-5) false := rfl

theorem test_decode_lut_get_freq :
    decode { op := 0b1001, ctrlValid := 1, ctrl := 7 / 2 } = .lutGetFreq true (7 / 2) ∧
    decode { op := 0b1001, ctrlValid := 0 } = .lutGetFreq false 0 := ⟨rfl, rfl⟩

theorem test_decode_sdm_set_point : decode { op := 0b1010, sdmIn := 478171 } = .sdmSetPoint 478171 := rfl

theorem test_decode_sdm_tick : decode { op := 0b1011 } = .sdmTick := rfl

theorem test_decode_step_lut : decode { op := 0b1100, count := 12345 } = .stepLut 12345 none := rfl

theorem test_decode_step_sdm : decode { op := 0b1101, count := 1000 } = .stepSdm 1000 none := rfl

theorem test_decode_observe : decode { op := 0b1110 } = .observe := rfl

theorem test_decode_reserved : decode { op := 0b1111 } = .reserved := rfl

theorem test_every_selector_runs_first_after_reset :
    (List.range 15).all (fun w => answers (step (State.reset.withFetchWord 8 w)) fun _ => true) = true ∧
    refuses (step (State.reset.withFetchWord 8 15)) .reservedSelector = true := by decide +kernel

/-! ## T-ENC -/

theorem test_packings :
    pack16 19 21 = 0x1315 ∧ pack16 7 7 = 0x0707 ∧ pack32 31 19 21 true = 0x80001315 ∧
    pack32 31 0 7 false = 0x00000007 ∧ pack32 31 255 255 true = 0x8000FFFF := by decide

theorem test_unpackings :
    (fracWordF 0x7FFF1315, fracWordP 0x7FFF1315, fracWordEn 31 0x7FFF1315) = (19, 21, false) ∧
    (fracWordF 0x80000000, fracWordP 0x80000000, fracWordEn 31 0x80000000) = (0, 0, true) ∧
    (fracWordF 0x00010000, fracWordP 0x00010000, fracWordEn 31 0x00010000) = (0, 0, false) := by decide

/-! ## RESET: T-EXC -/

theorem test_reset_valid :
    answers (exec .reset faultState) (fun t => t.result = .freq (4182000000 / 341) false ∧ t.fault = false ∧
      t.dco = ⟨.unlockedLow, 2, 4182000000 / 341⟩ ∧ t.pfd = ⟨0, true⟩) = true := by decide +kernel

theorem test_reset_invalid :
    answers (exec .reset (.afterReset badConfig)) (fun t => t.fault = true ∧ t.faultCause = .pllFRange) = true := by
  decide +kernel

theorem test_config_errors :
    configError { Config.base with lutPll0 := { Config.base.lutPll0 with F := 8192 } } = some .pllFRange ∧
    configError { Config.base with lutPll0 := { Config.base.lutPll0 with R := 0 } } = some .pllVcoRange ∧
    configError { Config.base with lut := [0x0107, 0x0007] } = some .lutNotMonotonic ∧
    configError { Config.base with lut := [0x0003, 0x0107] } = none ∧
    configError { Config.base with lut := [0x0001, 0x0002, 0x0000] } = some .lutNotMonotonic ∧
    configError { Config.base with lut := [0x1315] } = none := by decide +kernel

theorem test_config_errors_other :
    configError { Config.base with kii := -1 / 8 } = some .ctrlGainNegative ∧
    configError { Config.base with controlRateHz := 100 } = some .pfdConfig ∧
    configError { Config.base with lut := [] } = some .configParam ∧
    configError { Config.base with ki := 0 } = none ∧
    configError { sdmConfig with
      profiles := .replicate 4 { activeProfile sdmConfig with sdmNominal := 50000 } } = some .sdmProfile := by
  decide +kernel

/-! ## The PLL register model: T-PLL -/

theorem test_calc_frequency :
    (calcFrequency 24000000 ⟨505, 3, 1, 30, 0, 255, true⟩).toOption = some (6072046875 / 496) ∧
    (calcFrequency 24000000 ⟨149, 0, 7, 0, 0, 0, false⟩).toOption = some 112500000 ∧
    (calcFrequency 24000000 ⟨8191, 54, 7, 0, 0, 0, false⟩).toOption = some (1228800000 / 11) := by decide +kernel

theorem test_setting_errors :
    settingError 24000000 ⟨28, 0, 0, 0, 0, 0, false⟩ = some .pllVcoRange ∧
    settingError 24000000 ⟨150, 0, 0, 0, 0, 0, false⟩ = some .pllVcoRange ∧
    settingError 24000000 ⟨0, 0, 0, 0, 0, 0, false⟩ = some .pllFRange := by decide +kernel

/-- Row 22. -/
theorem test_pll_update_all :
    answers (exec (.pllUpdateAll 146 0 5 4 3 7) lutState) (fun t => t.result = .freq 29500000 false ∧
      t.pll = ⟨146, 0, 5, 4, 3, 7, true, 29500000⟩ ∧ t.dco.lastFreq = 4182000000 / 341) = true := by decide +kernel

/-- Row 23. -/
theorem test_pll_update_all_raises :
    answers (exec (.pllUpdateAll 150 0 1 30 19 21) lutState) (fun t => t.pll = lutState.pll ∧ t.fault = true ∧
      t.faultCause = .pllVcoRange) = true := by decide +kernel

/-- Row 18. -/
theorem test_pll_update_frac :
    answers (exec (.pllUpdateFrac 19 21 false) lutState) (fun t => t.result = .freq (379500000 / 31) false ∧
      t.dco.lastFreq = 4182000000 / 341) = true := by decide +kernel

/-- Row 20. -/
theorem test_pll_update_frac_reg :
    answers (exec (.pllUpdateFracReg 0x7FFF1315) lutState) (fun t => t.result = .freq (379500000 / 31) false ∧
      (t.pll.f, t.pll.p, t.pll.fracEn) = (19, 21, false)) = true := by decide +kernel

/-- Row 17. -/
theorem test_pll_calc_freq :
    answers (exec .pllCalcFreq lutState) (fun t => t.result = .freq (4182000000 / 341) false ∧ t.pll = lutState.pll) =
      true := by decide +kernel

/-! ## The detector: T-PFD -/

/-- Rows 3 and 4. -/
theorem test_pfd_wrap_and_range :
    answers (exec (.pfdGetError 26624 none) (withCount (.afterReset pfdConfig) 61440)) (fun t =>
      t.result = .pfdError 0 false ∧ t.pfd.lastCount = 26624) = true ∧
    answers (exec (.pfdGetError 57375 none) (withCount (.afterReset pfdConfig) 26624)) (fun t =>
      t.result = .pfdError 31 true) = true := by decide +kernel

theorem test_pfd_period_fraction :
    answers (exec (.pfdGetError 31750 (some (1001 / 1000))) (withCount (.afterReset pfdConfig) 1000)) (fun t =>
      t.result = .pfdError (-720 / 1001) false) = true ∧
    refuses (exec (.pfdGetError 31750 (some 0)) (.afterReset pfdConfig)) .periodFractionNotPositive = true := by
  decide +kernel

/-! ## The controller: T-CTRL -/

/-- Row 4. -/
theorem test_ctrl_core_clamps :
    answers (exec (.ctrlCore 20 false) (withAccum (.afterReset ctrlConfig) 32 62)) (fun t =>
      t.result = .totalError 26 ∧ t.ctrl.errorAccum = 32 ∧ t.ctrl.errorAccumAccum = 64) = true := by decide +kernel

/-- Row 6. -/
theorem test_ctrl_core_first_loop :
    answers (exec (.ctrlCore 7 true) (withAccum (.afterReset ctrlConfig) 28 64)) (fun t =>
      t.result = .totalError 0 ∧ t.ctrl.errorAccum = 0 ∧ t.ctrl.errorAccumAccum = 0) = true := by decide +kernel

theorem test_ctrl_lut :
    answers (exec (.ctrlLut 10 false) (withAccum lutState 12 16)) (fun t => t.result = .ctrl true (-3 / 2)) = true := by
  decide +kernel

theorem test_ctrl_lut_null :
    answers (exec (.ctrlLut (-100) true) (withAccum lutState 32 70)) (fun t =>
      isNull t.result ∧ t.ctrl = ⟨0, 0, 0, 0⟩) = true := by decide +kernel

theorem test_ctrl_sdm :
    answers (exec (.ctrlSdm (-5) false) sdmState) (fun t =>
      t.result = .sdmIn 478171 ∧ t.ctrl = ⟨5, 5, 160, 20⟩) = true := by decide +kernel

theorem test_ctrl_sdm_negative_shift :
    answers (exec (.ctrlSdm 8 false) ((withAccum sdmState 5 5).setCtrl ⟨5, 5, 160, 20⟩)) (fun t =>
      t.result = .sdmIn 478156 ∧ t.ctrl.iirY = 5) = true := by decide +kernel

/-! ## The DCOs: T-LUT, T-SDM, P4 -/

/-- Rows 5 and 8. -/
theorem test_lut_get_freq :
    answers (exec (.lutGetFreq true (-1 / 1000)) lutState) (fun t =>
      t.result = .freqLock (379593750 / 31) 0b11 ∧ t.dco.lockCount = 2) = true ∧
    answers (exec (.lutGetFreq true (55 / 8)) lutState) (fun t =>
      t.result = .freqLock (380156250 / 31) 0b11 ∧ t.dco.lockCount = 1) = true := by decide +kernel

/-- Row 6. -/
theorem test_lut_get_freq_high :
    answers (exec (.lutGetFreq true (7001 / 1000)) lutState) (fun t =>
      t.result = .freqLock (380250000 / 31) 0b01 ∧ t.fracReg = 0x80000707) = true := by decide +kernel

theorem test_sdm_set_point :
    answers (exec (.sdmSetPoint 1000000) sdmState) (fun t =>
      t.result = .noPorts ∧ t.sdm.setpoint = 1000000 ∧ t.dco = sdmState.dco) = true := by decide +kernel

/-- P4, the fourth tick. -/
theorem test_sdm_tick_saturated :
    answers (exec .sdmTick ((sdmState.setSdm ⟨1434453, 44826, 466, 1000000, 0⟩).setDco ⟨.locked, 0, 29400000⟩)) (fun t =>
      t.result = .tick 1 29425000 0b01 ∧ t.sdm = ⟨2283381, 73268, 1098, 1000000, 1⟩ ∧ t.dco.lockCount = 3) = true := by
  decide +kernel

theorem test_sdm_update_standard :
    sdmUpdateStandard 0 0 5000 60000 = ⟨8, -988576, -131072, -1144⟩ ∧
    sdmUpdateStandard (-33) (-33) 455 0 = ⟨0, -33, -35, 453⟩ ∧
    sdmUpdateStandard 0 0 (-1) 60000 = ⟨0, 60000, 0, -1⟩ := by decide +kernel

/-! ## The orchestrator and the system operations: P1, P3, P5 -/

/-- P1, period 5. -/
theorem test_step_lut :
    answers (exec (.stepLut 11779 none) (withAccum (withCount lutState 28295) 22 38)) (fun t =>
      t.result = .freqLock (379593750 / 31) 0b11 ∧ t.ctrl = ⟨32, 70, 8, 0⟩) = true := by decide +kernel

/-- P1, period 6. -/
theorem test_step_lut_resynchronises :
    answers (exec (.stepLut 60679 none) (withAccum (withCount lutState 11779) 32 70)) (fun t =>
      t.ctrl = ⟨0, 0, 0, 0⟩ ∧ t.pll = lutState.pll ∧ t.pfd = ⟨60679, true⟩) = true := by decide +kernel

/-- P3, the third period. -/
theorem test_step_sdm :
    answers (exec (.stepSdm 53431 none) ((withCount sdmState 59977).setCtrl ⟨5, 5, 160, 20⟩)) (fun t =>
      t.ctrl = ⟨-3, 2, -96, 5⟩ ∧ t.sdm.setpoint = 478156 ∧ t.pfd = ⟨53431, false⟩) = true := by decide +kernel

theorem test_observe :
    answers (exec .observe lutState) (fun t => t.result = .observation 0b11 0x80001315 0 0) = true ∧
    refuses (exec .observe faultState) .faultLatched = true := by decide +kernel

theorem test_refusals :
    refuses (exec .reserved lutState) .reservedSelector = true ∧
    refuses (exec (.stepSdm 1 none) lutState) .wrongVariant = true ∧
    refuses (exec .observe (.powerOn Config.base [])) .beforeFirstReset = true := by decide +kernel

/-! ## Witnesses: states and operands that meet the hypotheses of the statements -/

theorem witness_StepRunsDecodedOperation :
    (State.reset.withFetchWord 8 0b0100).input = { op := 0b0100 } :: [] ∧ State.reset.input = [] := by decide +kernel

/-- Two words that differ in ignored bits only, for the enable at either end of the upper half. -/
theorem witness_FractionalWordPacking :
    (∀ j < 32, j < 16 ∨ j = 31 → (0x80001315 : FracWord).getLsbD j = (0xFFFF1315 : FracWord).getLsbD j) ∧
    (∀ j < 32, j < 16 ∨ j = 16 → (0x00011315 : FracWord).getLsbD j = (0xFFFF1315 : FracWord).getLsbD j) := by decide

/-- A value for each clause, at the bounds. -/
theorem witness_CalcFrequencyChecksThenComputes :
    settingError 24000000 ⟨8192, 64, 8, 0, 0, 0, false⟩ = some .pllFRange ∧
    settingError 24000000 ⟨1, 64, 8, 0, 0, 0, false⟩ = some .pllRRange ∧
    settingError 24000000 ⟨8191, 63, 8, 0, 0, 0, false⟩ = some .pllOdRange ∧
    settingError 24000000 ⟨1, 0, 7, 0, 0, 0, false⟩ = some .pllVcoRange ∧
    settingError 24000000 ⟨29, 0, 0, 0, 0, 0, false⟩ = none ∧
    settingError 24000000 ⟨149, 0, 7, 0, 0, 0, false⟩ = none := by decide +kernel

theorem witness_FrequencyIsMonotoneInFraction : (0 : Hz) < 24000000 := by decide +kernel

/-- Both clauses: a legal and an illegal new setting. -/
theorem witness_PllUpdateAllReplacesAllFields :
    lutState.Running ∧
    settingError (inputHz lutState.cfg) ⟨146, 0, 5, 4, 3, 7, lutState.pll.fracEn⟩ = none ∧
    settingError (inputHz lutState.cfg) ⟨150, 0, 1, 30, 19, 21, lutState.pll.fracEn⟩ = some .pllVcoRange := by
  decide +kernel

theorem witness_PllUpdateFracReplacesFraction : lutState.Running ∧ lutState.PllLegal := by decide +kernel

theorem witness_PllUpdateFracRegUnpacksWord : sdmState.Running ∧ sdmState.PllLegal := by decide +kernel

/-- The legal clause, and a state with an illegal setting for the other. -/
theorem witness_PllCalcFreqIsIdempotent :
    lutState.Running ∧ lutState.PllLegal ∧ settingError (inputHz lutState.cfg) lutState.pll.setting = none ∧
    (lutState.setPll { lutState.pll with F := 0 }).Running ∧
    settingError (inputHz lutState.cfg) { lutState.pll.setting with F := 0 } = some .pllFRange := by decide +kernel

theorem witness_PfdGetErrorResult :
    lutState.Running ∧ 65535 < 2 ^ lutState.cfg.countWidth ∧ 0 < (none : Option Rat).getD 1 ∧
    0 < (some (1 / 2) : Option Rat).getD 1 ∧ (some 0 : Option Rat).getD 1 ≤ 0 := by decide +kernel

/-- Both bounds on `n`: below the modulus, and not. -/
theorem witness_IncrementSurvivesWrap :
    65535 < countModulus Config.base ∧ ¬ 65536 < countModulus Config.base := by decide +kernel

/-- An in-range sample, and a sample on which the two errors differ. -/
theorem witness_SignedWrapAgreesInRange :
    pfdError Config.base = none ∧ Config.base.ppmRange ≤ 1000000 ∧
    outOfRange Config.base (pfdErrorValue Config.base 0 49024 1) = false ∧
    (signedWrapError Config.base 0 0 : Rat) ≠ pfdErrorValue Config.base 0 0 1 := by decide +kernel

/-- The first three counts of T-PFD, from a counter whose advances are below the modulus, and the largest such advance. -/
theorem witness_DetectorLosesNoEdge :
    lutState.Running ∧ lutState.pfd.lastCount < countModulus lutState.cfg ∧ 0 % countModulus lutState.cfg = lutState.pfd.lastCount ∧
    presentedCounts lutState.cfg 0 [30720, 30720, 30720] = [30720, 61440, 26624] ∧
    edgesCounted lutState.cfg lutState.pfd.lastCount [30720, 61440, 26624] = 92160 ∧
    (∀ n ∈ [30720, 61440, 26624], n < countModulus lutState.cfg) ∧
    ∀ n ∈ [65535, 0], n < countModulus lutState.cfg := by decide +kernel

theorem witness_CtrlCoreUpdatesAccumulators : (State.afterReset ctrlConfig).Running := by decide +kernel

theorem witness_ControllerContainsWindup :
    ConfigValid lutState.cfg ∧ ∃ t, exec (.ctrlCore 1000 false) lutState = .next t :=
  ⟨by decide +kernel, _, execCtrlCore_eq_next.2 ⟨by decide +kernel, rfl⟩⟩

theorem witness_ResynchronisationClearsAccumulators : lutState.Running ∧ ConfigValid lutState.cfg := by decide +kernel

/-- Both values of `first_loop`. -/
theorem witness_CtrlLutSubtractsFromBaseIndex :
    lutState.Running ∧ lutState.cfg.variant = .lut ∧ (∃ b, b = false) ∧ ∃ b, b = true :=
  ⟨by decide +kernel, rfl, ⟨_, rfl⟩, _, rfl⟩

theorem witness_CtrlSdmFiltersNegatedError : sdmState.Running ∧ sdmState.cfg.variant = .sdm := by decide +kernel

/-- Upward, downward, and where the two meet. -/
theorem witness_FilterNeverOvershoots :
    (0 : Int) ≤ 160 ∧ (0 : Int) ≤ 200 ∧ filterStep 0 160 = 20 ∧ filterStep 200 0 = 175 ∧ filterStep 153 160 = 153 := by
  decide +kernel

theorem witness_TruncRoundsTowardZero :
    (0 : Rat) ≤ 3 / 2 ∧ (-3 / 2 : Rat) ≤ 0 ∧ trunc (3 / 2) = 1 ∧ trunc (-3 / 2) = -1 ∧ trunc 0 = 0 := by decide +kernel

theorem witness_LutGetFreqSelectsEntry :
    lutState.Running ∧ lutState.cfg.variant = .lut ∧ lutState.PllLegal ∧ 1 ≤ lutState.cfg.lut.length := by decide +kernel

theorem witness_LutForcesFractionalEnable :
    lutState.Running ∧ lutState.cfg.variant = .lut ∧ lutState.PllLegal ∧ 1 ≤ lutState.cfg.lut.length ∧
    16 ≤ lutState.cfg.fracEnBit ∧ lutState.cfg.fracEnBit < 32 ∧ lutState.cfg.fracEnBit = 31 := by decide +kernel

theorem witness_LutFrequencyStaysInTableRange :
    lutState.Inv ∧ lutState.Running ∧ lutState.cfg.variant = .lut := by decide +kernel

/-- An out-of-range sample on either side, and in-range ones at both boundaries. -/
theorem witness_LutLockNeedsSustainedRange :
    lutState.Inv ∧ lutState.Running ∧ lutState.cfg.variant = .lut ∧
    ((-1 / 1000 : Rat) < 0 ∨ (lutState.cfg.lut.length : Rat) - 1 < -1 / 1000) ∧
    ((7001 / 1000 : Rat) < 0 ∨ (lutState.cfg.lut.length : Rat) - 1 < 7001 / 1000) ∧
    ∀ x ∈ [(0 : Rat), 7], 0 ≤ x ∧ x ≤ (lutState.cfg.lut.length : Rat) - 1 := by decide +kernel

/-- An out-of-range set-point on either side, and runs of ticks on in-range ones, both boundaries and the empty run among
them. -/
theorem witness_SdmLockNeedsSustainedRange :
    sdmState.Inv ∧ sdmState.Running ∧ sdmState.cfg.variant = .sdm ∧
    ((59999 : Int) < sdmInMin sdmState.cfg ∨ sdmInMax sdmState.cfg < 59999) ∧
    ((980001 : Int) < sdmInMin sdmState.cfg ∨ sdmInMax sdmState.cfg < 980001) ∧
    ∀ r ∈ [((60000 : Int), 1), (980000, 2), (478151, 0)], sdmInMin sdmState.cfg ≤ r.1 ∧ r.1 ≤ sdmInMax sdmState.cfg := by
  decide +kernel

theorem witness_SdmSetPointStoresValue : sdmState.Running ∧ sdmState.cfg.variant = .sdm := by decide +kernel

theorem witness_SdmTickRunsModulator :
    sdmState.Running ∧ sdmState.cfg.variant = .sdm ∧ sdmState.PllLegal := by decide +kernel

theorem witness_SdmTickStaysInStepRange :
    sdmState.Inv ∧ sdmState.Running ∧ ∃ t, exec .sdmTick sdmState = .next t :=
  ⟨by decide +kernel, by decide +kernel,
    (exists_of_answers (Q := fun _ => true) (by decide +kernel)).imp fun _ h => h.1⟩

/-- Both saturations beside the plain case. -/
theorem witness_SetPointVisibleAtNextTick :
    sdmState.Running ∧ sdmState.cfg.variant = .sdm ∧ sdmState.PllLegal ∧ sdmInMax sdmState.cfg < 980001 ∧
    ¬ sdmInMax sdmState.cfg < 59999 ∧ (59999 : Int) < sdmInMin sdmState.cfg := by decide +kernel

theorem witness_TickIgnoresControlAgent : ∃ t, exec .sdmTick sdmState = .next t :=
  (exists_of_answers (Q := fun _ => true) (by decide +kernel)).imp fun _ h => h.1

theorem witness_PeriodIgnoresModulator : ∃ t, exec (.stepSdm 1000 none) sdmState = .next t :=
  (exists_of_answers (Q := fun _ => true) (by decide +kernel)).imp fun _ h => h.1

theorem witness_StepLutIsThreeOperations :
    lutState.Inv ∧ lutState.Running ∧ lutState.cfg.variant = .lut ∧ 0 < (none : Option Rat).getD 1 ∧
    (some 0 : Option Rat).getD 1 ≤ 0 := by decide +kernel

theorem witness_StepSdmIsThreeOperations :
    sdmState.Running ∧ sdmState.cfg.variant = .sdm ∧ 0 < (none : Option Rat).getD 1 ∧
    (some 0 : Option Rat).getD 1 ≤ 0 := by decide +kernel

theorem witness_ResynchronisationPeriodHoldsOscillator :
    lutState.Running ∧ ConfigValid lutState.cfg ∧ lutState.cfg.variant = .lut ∧ 0 < (none : Option Rat).getD 1 ∧
    outOfRange lutState.cfg (pfdSampleError 12345 none lutState) = true := by decide +kernel

theorem witness_ObserveReturnsTuple : lutState.Running ∧ sdmState.Running := by decide +kernel

/-- Both clauses, from running states and from power-on. -/
theorem witness_ResetWritesResetValues :
    ConfigValid lutState.cfg ∧ ConfigValid sdmState.cfg ∧
    configError (State.powerOn badConfig []).cfg = some .pllFRange := by decide +kernel

theorem witness_ResetReadsNoRegister : (State.powerOn Config.base []).cfg = lutState.cfg := by decide +kernel

/-- The clauses that `test_config_errors` and `test_config_errors_other` leave: `R` and `OD` just above their ranges. -/
theorem witness_ConfigurationChecksInOrder :
    configError { Config.base with lutPll0 := { Config.base.lutPll0 with R := 64, OD := 8 } } = some .pllRRange ∧
    configError { Config.base with lutPll0 := { Config.base.lutPll0 with OD := 8 } } = some .pllOdRange ∧
    configError Config.base = none := by decide +kernel

/-- Both ways of not running. -/
theorem witness_OnlyResetStepsWhenNotRunning :
    ¬ faultState.Running ∧ ¬ (State.powerOn Config.base []).Running ∧ Instr.observe ≠ .reset := by decide +kernel

theorem witness_WrongVariantAndFractionAreRefused :
    (sdmState.Running ∧ sdmState.cfg.variant = .sdm) ∧ (lutState.Running ∧ lutState.cfg.variant = .lut) ∧
    (0 : Rat) ≤ 0 ∧ (-1 : Rat) ≤ 0 := by decide +kernel

theorem witness_ExceptionIsPrecise :
    ∃ t, exec (.pllUpdateAll 150 0 1 30 19 21) lutState = .next t ∧
      Instr.pllUpdateAll 150 0 1 30 19 21 ≠ .reset ∧ t.fault = true :=
  (exists_of_answers (Q := fun t => t.fault) (by decide +kernel)).imp fun _ h => ⟨h.1, by decide +kernel, h.2⟩

theorem witness_SteadyStateNeverRaises :
    lutState.Inv ∧ lutState.Running ∧ Instr.stepLut 0 none ≠ .reset ∧
    ∀ F R OD ACD f p, Instr.stepLut 0 none ≠ .pllUpdateAll F R OD ACD f p :=
  ⟨by decide +kernel, by decide +kernel, by decide +kernel, fun _ _ _ _ _ _ h => by cases h⟩

/-- A latched fault that `RESET` clears. -/
theorem witness_FaultRecordIsSticky :
    ∃ t, exec .reset faultState = .next t ∧ faultState.faultSeen = true ∧ faultState.fault = true ∧ t.fault = false :=
  (exists_of_answers (Q := fun t => !t.fault) (by decide +kernel)).imp fun _ h =>
    ⟨h.1, rfl, rfl, by simpa using h.2⟩

/-- A valid configuration of either variant. -/
theorem witness_ResetMeetsInvariant : ConfigValid Config.base ∧ ConfigValid sdmConfig := by decide +kernel

theorem witness_EveryStepKeepsInvariant :
    (State.reset.withFetchWord 8 0b1100).Inv ∧ ∃ t, step (State.reset.withFetchWord 8 0b1100) = .next t :=
  ⟨by decide +kernel, (exists_of_answers (Q := fun _ => true) (by decide +kernel)).imp fun _ h => h.1⟩

theorem witness_EveryStepKeepsConfiguration : ∃ t, step (State.reset.withFetchWord 8 0b0100) = .next t :=
  (exists_of_answers (Q := fun _ => true) (by decide +kernel)).imp fun _ h => h.1

theorem witness_PllOperationsFrame :
    (∃ t, exec (.pllUpdateAll 146 0 5 4 3 7) lutState = .next t) ∧
    (∃ t, exec (.pllUpdateFrac 19 21 false) lutState = .next t) ∧
    (∃ t, exec (.pllUpdateFracReg 0x80000307) lutState = .next t) ∧ ∃ t, exec .pllCalcFreq lutState = .next t :=
  ⟨(exists_of_answers (Q := fun _ => true) (by decide +kernel)).imp fun _ h => h.1,
    (exists_of_answers (Q := fun _ => true) (by decide +kernel)).imp fun _ h => h.1,
    (exists_of_answers (Q := fun _ => true) (by decide +kernel)).imp fun _ h => h.1,
    (exists_of_answers (Q := fun _ => true) (by decide +kernel)).imp fun _ h => h.1⟩

theorem witness_DetectorAndControllerFrame :
    (∃ t, exec (.pfdGetError 49000 none) lutState = .next t) ∧ (∃ t, exec (.ctrlCore 10 false) lutState = .next t) ∧
    (∃ t, exec (.ctrlLut 10 true) lutState = .next t) ∧ (∃ t, exec (.ctrlSdm 10 false) sdmState = .next t) ∧
    (∃ t, exec (.sdmSetPoint 5) sdmState = .next t) ∧ (∃ t, exec (.stepSdm 1000 none) sdmState = .next t) ∧
    ∃ t, exec .observe lutState = .next t :=
  ⟨(exists_of_answers (Q := fun _ => true) (by decide +kernel)).imp fun _ h => h.1,
    (exists_of_answers (Q := fun _ => true) (by decide +kernel)).imp fun _ h => h.1,
    (exists_of_answers (Q := fun _ => true) (by decide +kernel)).imp fun _ h => h.1,
    (exists_of_answers (Q := fun _ => true) (by decide +kernel)).imp fun _ h => h.1,
    (exists_of_answers (Q := fun _ => true) (by decide +kernel)).imp fun _ h => h.1,
    (exists_of_answers (Q := fun _ => true) (by decide +kernel)).imp fun _ h => h.1,
    (exists_of_answers (Q := fun _ => true) (by decide +kernel)).imp fun _ h => h.1⟩

theorem witness_OscillatorOperationsFrame :
    (∃ t, exec (.lutGetFreq true 3) lutState = .next t) ∧ (∃ t, exec .sdmTick sdmState = .next t) ∧
    ∃ t, exec (.stepLut 49000 none) lutState = .next t :=
  ⟨(exists_of_answers (Q := fun _ => true) (by decide +kernel)).imp fun _ h => h.1,
    (exists_of_answers (Q := fun _ => true) (by decide +kernel)).imp fun _ h => h.1,
    (exists_of_answers (Q := fun _ => true) (by decide +kernel)).imp fun _ h => h.1⟩

end Sys2Proof.Tests
end

section
/-! PROOFS of the scope family (00_scope): the rounding of R8, and the configuration of R6 that no operation writes. -/

namespace Sys2Proof.Machine

/-! ## Rounding toward zero (00_scope R8) -/

theorem trunc_of_nonneg {q : Rat} (h : 0 ≤ q) : trunc q = ⌊q⌋ := by
  rw [trunc, Int.tdiv_eq_ediv_of_nonneg (Rat.num_nonneg.2 h), Rat.floor_def']

/-- Rounding toward zero is symmetric about 0: what holds above 0 carries over to below. -/
theorem trunc_neg (q : Rat) : trunc (-q) = -trunc q := by
  simp only [trunc, Rat.num_neg_eq_neg_num, Rat.den_neg_eq_den, Int.neg_tdiv]

theorem trunc_of_nonpos {q : Rat} (h : q ≤ 0) : trunc q = ⌈q⌉ := by
  rw [← neg_inj, ← trunc_neg, trunc_of_nonneg (neg_nonneg.2 h), Int.floor_neg]

theorem abs_trunc_le_abs_of_nonneg {q : Rat} (h : 0 ≤ q) : |(trunc q : Rat)| ≤ |q| := by
  have h0 : (0 : Rat) ≤ ⌊q⌋ := Int.cast_nonneg (Int.floor_nonneg.2 h)
  rw [trunc_of_nonneg h, abs_of_nonneg h0, abs_of_nonneg h]
  exact Int.floor_le q

theorem abs_sub_trunc_lt_one_of_nonneg {q : Rat} (h : 0 ≤ q) : |q - trunc q| < 1 := by
  rw [trunc_of_nonneg h, Int.self_sub_floor, Int.abs_fract]
  exact Int.fract_lt_one q

theorem abs_trunc_le_abs (q : Rat) : |(trunc q : Rat)| ≤ |q| := by
  rcases le_total 0 q with h | h
  · exact abs_trunc_le_abs_of_nonneg h
  · simpa [trunc_neg] using abs_trunc_le_abs_of_nonneg (neg_nonneg.2 h)

theorem abs_sub_trunc_lt_one (q : Rat) : |q - trunc q| < 1 := by
  rcases le_total 0 q with h | h
  · exact abs_sub_trunc_lt_one_of_nonneg h
  · have hneg : -q - ((trunc (-q) : Int) : Rat) = -(q - trunc q) := by
      rw [trunc_neg]
      push_cast
      ring
    simpa only [hneg, abs_neg] using abs_sub_trunc_lt_one_of_nonneg (neg_nonneg.2 h)

/-- Settles O23: `trunc` is the floor from 0 on, odd, and so the ceiling below 0. -/
theorem truncRoundsTowardZero : Obligations.TruncRoundsTowardZero := fun q =>
  ⟨trunc_of_nonneg, trunc_of_nonpos, abs_trunc_le_abs q, abs_sub_trunc_lt_one q⟩

/-! ## The configuration of the parts of an operation (00_scope R6) -/

@[simp] theorem presentFreq_cfg (s : State) : (presentFreq s).cfg = s.cfg := rfl

@[simp] theorem presentFreqLock_cfg (s : State) : (presentFreqLock s).cfg = s.cfg := rfl

@[simp] theorem presentTick_cfg (s : State) : (presentTick s).cfg = s.cfg := rfl

@[simp] theorem cacheFreq_cfg (s : State) : (cacheFreq s).cfg = s.cfg := rfl

@[simp] theorem pfdSample_cfg (count : Nat) (pf : Option Rat) (s : State) : (pfdSample count pf s).cfg = s.cfg := rfl

@[simp] theorem ctrlLut_cfg (error : Rat) (fl : Bool) (s : State) : (ctrlLut error fl s).cfg = s.cfg := by
  rw [ctrlLut_eq, ctrlCore_cfg]

@[simp] theorem ctrlSdm_cfg (error : Rat) (fl : Bool) (s : State) : (ctrlSdm error fl s).cfg = s.cfg := rfl

@[simp] theorem sdmSetPoint_cfg (v : Int) (s : State) : (sdmSetPoint v s).cfg = s.cfg := rfl

@[simp] theorem stepSdm_cfg (count : Nat) (pf : Option Rat) (s : State) : (stepSdm count pf s).cfg = s.cfg := rfl

theorem pllWrite_keeps_cfg {r : PllRegs} {s t : State} (h : pllWrite r s = .ok t) : t.cfg = s.cfg := by
  obtain ⟨-, rfl⟩ := pllWrite_eq_ok.1 h
  rfl

theorem lutGetFreq_keeps_cfg {v : Bool} {ctrl : Rat} {s t : State} (h : lutGetFreq v ctrl s = .ok t) :
    t.cfg = s.cfg := by
  rw [lutGetFreq_frame h]

theorem sdmTick_keeps_cfg {s t : State} (h : sdmTick s = .ok t) : t.cfg = s.cfg := by
  obtain ⟨-, rfl⟩ := sdmTick_eq_ok.1 h
  rfl

theorem stepLut_keeps_cfg {count : Nat} {pf : Option Rat} {s t : State} (h : stepLut count pf s = .ok t) :
    t.cfg = s.cfg := by
  simpa using lutGetFreq_keeps_cfg h

/-! ## No step changes the configuration (00_scope R6, 20_memory R31, R39) -/

/-- An operation that commits keeps the configuration where its computation and its results do: the exception discards
every write and does not touch `cfg` (R111). -/
theorem commit_map_keeps_cfg {s t : State} {u : Result} {f : State → State} {r : Except Trap State}
    (hf : ∀ v, (f v).cfg = v.cfg) (hr : ∀ v, r = .ok v → v.cfg = s.cfg) (h : commit s u (f <$> r) = .next t) :
    t.cfg = s.cfg := by
  rcases commit_map_eq_next.1 h with ⟨v, hv, rfl⟩ | ⟨c, -, rfl⟩
  · exact (hf v).trans (hr v hv)
  · rfl

theorem exec_keeps_cfg {i : Instr} {s t : State} (h : exec i s = .next t) : t.cfg = s.cfg := by
  cases i with
  | reset => rcases execReset_eq_next.1 h with ⟨-, rfl⟩ | ⟨c, -, rfl⟩ <;> rfl
  | pllUpdateAll | pllUpdateFrac | pllUpdateFracReg | pllCalcFreq =>
    exact commit_map_keeps_cfg presentFreq_cfg (fun _ => pllWrite_keeps_cfg) (whenRunning_eq_next.1 h).2
  | pfdGetError =>
    obtain ⟨-, -, rfl⟩ := execPfdGetError_eq_next.1 h
    simp
  | ctrlCore =>
    obtain ⟨-, rfl⟩ := execCtrlCore_eq_next.1 h
    simp
  | ctrlLut =>
    obtain ⟨-, -, rfl⟩ := execCtrlLut_eq_next.1 h
    simp
  | ctrlSdm =>
    obtain ⟨-, -, rfl⟩ := execCtrlSdm_eq_next.1 h
    simp
  | lutGetFreq =>
    obtain ⟨-, -, h⟩ := whenVariant_eq_next.1 h
    exact commit_map_keeps_cfg presentFreqLock_cfg (fun _ => lutGetFreq_keeps_cfg) h
  | sdmSetPoint =>
    obtain ⟨-, -, rfl⟩ := execSdmSetPoint_eq_next.1 h
    simp
  | sdmTick =>
    obtain ⟨-, -, h⟩ := whenVariant_eq_next.1 h
    exact commit_map_keeps_cfg presentTick_cfg (fun _ => sdmTick_keeps_cfg) h
  | stepLut =>
    obtain ⟨-, -, h⟩ := whenVariant_eq_next.1 h
    exact commit_map_keeps_cfg presentFreqLock_cfg (fun _ => stepLut_keeps_cfg) (whenPositive_eq_next.1 h).2
  | stepSdm =>
    obtain ⟨-, -, -, rfl⟩ := execStepSdm_eq_next.1 h
    simp
  | observe =>
    obtain ⟨-, rfl⟩ := execObserve_eq_next.1 h
    simp
  | reserved => exact nomatch h

theorem step_keeps_cfg {s t : State} (h : step s = .next t) : t.cfg = s.cfg := by
  obtain ⟨fr, rest, -, hexec⟩ := step_eq_next.1 h
  exact (exec_keeps_cfg hexec :)

/-- Settles O49: every operation keeps the configuration, and the table is part of it. -/
theorem everyStepKeepsConfiguration : Obligations.EveryStepKeepsConfiguration := fun s t h => by
  have hcfg : t.cfg = s.cfg := step_keeps_cfg h
  exact ⟨hcfg, fun i => congrArg (lutRead · i) hcfg⟩

end Sys2Proof.Machine
end

section
/-! PROOFS of the state family (10_state): the step (R28), where a run starts (R29, R120), the invariant of the block
(R20 to R23) and what each operation leaves unchanged (R26, R27). -/

namespace Sys2Proof.Machine

/-! ## A step takes the head of the host's list (10_state R28, 70_reset_and_hazards R124) -/

theorem step_of_cons {s : State} {fr : Frame} {rest : List Frame} (h : s.input = fr :: rest) :
    step s = exec (decode fr) { s with input := rest } := by
  simp [step, nextOperation, h]

theorem step_of_nil {s : State} (h : s.input = []) : step s = .refused .runEnded := by
  simp [step, nextOperation, h]

/-- Settles O3, by the two cases of the host's list. -/
theorem stepRunsDecodedOperation : Obligations.StepRunsDecodedOperation :=
  ⟨fun _ _ _ => step_of_cons, fun _ => step_of_nil⟩

/-! ## The accumulators after a controller call (42_controller R76 (a)) -/

theorem ctrlLut_windupContained {s : State} (h : ConfigValid s.cfg) (error : Rat) (fl : Bool) :
    (ctrlLut error fl s).WindupContained := by
  rw [ctrlLut_eq]
  exact ctrlCore_windupContained h error fl

/-- The filter of `CTRL_SDM` writes `iir_y` only (R75), so the accumulators are the core's. -/
theorem ctrlSdm_windupContained {s : State} (h : ConfigValid s.cfg) (error : Rat) (fl : Bool) :
    (ctrlSdm error fl s).WindupContained :=
  ctrlCore_windupContained h (-error) fl

/-- Settles O18: each call ends with the core's clamps, which contain the accumulators under a valid configuration. -/
theorem controllerContainsWindup : Obligations.ControllerContainsWindup := by
  rintro s t i hc ⟨e, fl, rfl | rfl | rfl⟩ h
  · obtain ⟨-, rfl⟩ := execCtrlCore_eq_next.1 h
    exact ctrlCore_windupContained hc e fl
  · obtain ⟨-, -, rfl⟩ := execCtrlLut_eq_next.1 h
    exact ctrlLut_windupContained hc e fl
  · obtain ⟨-, -, rfl⟩ := execCtrlSdm_eq_next.1 h
    exact ctrlSdm_windupContained hc e fl

/-! ## The invariant of a running block, and what each write needs to keep it -/

/-- A running block that meets the invariant: `Running` with every part of `State.Inv` named. -/
structure State.Steady (s : State) : Prop where
  running : s.Running
  widths : s.WithinWidths
  valid : ConfigValid s.cfg
  pll : s.PllLegal
  windup : s.WindupContained
  lock : s.LockLegal

theorem State.Inv.steady {s : State} (h : s.Inv) (hr : s.Running) : s.Steady := by
  obtain ⟨hw, -, hrun⟩ := h
  obtain ⟨hv, hp, hc, hl⟩ := hrun hr
  exact ⟨hr, hw, hv, hp, hc, hl⟩

namespace State.Steady

variable {s : State}

theorem inv (h : s.Steady) : s.Inv :=
  ⟨h.widths, fun _ hf => absurd (h.running.2.symm.trans hf) Bool.false_ne_true,
    fun _ => ⟨h.valid, h.pll, h.windup, h.lock⟩⟩

/-- The exception leaves every register but the fault registers, and records the fault (R111, R115). -/
theorem inv_raiseConfigurationError (h : s.Steady) (c : Cause) (u : Result) :
    (s.raiseConfigurationError c u).Inv :=
  ⟨h.widths, fun _ _ => rfl, fun hr => nomatch hr.2⟩

theorem present (h : s.Steady) (r : Result) : (s.present r).Steady := { h with }

theorem setPll (h : s.Steady) {r : PllRegs} (hr : settingError (inputHz s.cfg) r.setting = none)
    (hf : r.outFreq = outputHz (inputHz s.cfg) r.setting) : (s.setPll r).Steady :=
  { h with pll := ⟨hr, hf⟩ }

/-- The checks do not read the fraction (R53), so writing it with its frequency keeps `S.pll` legal. -/
theorem setFraction (h : s.Steady) (f p : BitVec 8) (en : Bool) :
    (s.setPll { s.pll with
      f := f, p := p, fracEn := en
      outFreq := outputHz (inputHz s.cfg) { s.pll.setting with f := f, p := p, en := en } }).Steady :=
  h.setPll h.pll.1 rfl

theorem setPfd (h : s.Steady) {r : PfdRegs} (hr : r.lastCount < countModulus s.cfg) : (s.setPfd r).Steady :=
  { h with widths := ⟨hr, h.widths.2⟩ }

theorem setDco (h : s.Steady) {r : DcoRegs} (hc : r.lockCount ≤ s.cfg.lockCountThreshold)
    (hl : r.lockStatus = .locked → r.lockCount = 0) : (s.setDco r).Steady :=
  { h with widths := ⟨h.widths.1, hc⟩, lock := hl }

theorem setSdm (h : s.Steady) (r : SdmRegs) : (s.setSdm r).Steady := { h with }

/-! ### The parts of the operations -/

protected theorem pllWrite (h : s.Steady) {r : PllRegs} {t : State} (ht : pllWrite r s = .ok t) : t.Steady := by
  obtain ⟨hr, rfl⟩ := pllWrite_eq_ok.1 ht
  exact h.setPll hr rfl

/-- `last_count` is the `W`-bit port's value (R21, R65). -/
protected theorem pfdSample (h : s.Steady) (count : Nat) (pf : Option Rat) : (pfdSample count pf s).Steady :=
  h.setPfd (Nat.mod_lt _ (Nat.two_pow_pos _))

protected theorem ctrlCore (h : s.Steady) (error : Rat) (fl : Bool) : (ctrlCore error fl s).Steady :=
  { h with windup := ctrlCore_windupContained h.valid error fl }

protected theorem ctrlLut (h : s.Steady) (error : Rat) (fl : Bool) : (ctrlLut error fl s).Steady := by
  rw [ctrlLut_eq]
  exact { h.ctrlCore error fl with }

protected theorem ctrlSdm (h : s.Steady) (error : Rat) (fl : Bool) : (ctrlSdm error fl s).Steady :=
  { h with windup := ctrlSdm_windupContained h.valid error fl }

protected theorem cacheFreq (h : s.Steady) : (cacheFreq s).Steady := h.setDco h.widths.2 h.lock

protected theorem lockUpdate (h : s.Steady) (x : Sample) : (s.setDco (lockUpdate s.cfg s.dco x)).Steady :=
  have hl := lockUpdate_legal s.cfg s.dco x h.widths.2 h.lock
  h.setDco hl.1 hl.2

protected theorem lutGetFreq (h : s.Steady) {v : Bool} {ctrl : Rat} {t : State} (ht : lutGetFreq v ctrl s = .ok t) :
    t.Steady := by
  rcases lutGetFreq_eq_ok.1 ht with ⟨-, rfl⟩ | ⟨-, w, -, -, rfl⟩
  · exact h
  · exact ((h.lockUpdate _).setFraction _ _ _).cacheFreq

protected theorem sdmTick (h : s.Steady) {t : State} (ht : sdmTick s = .ok t) : t.Steady := by
  obtain ⟨-, rfl⟩ := sdmTick_eq_ok.1 ht
  exact (((h.lockUpdate _).setSdm _).setFraction _ _ _).cacheFreq

protected theorem stepLut (h : s.Steady) {count : Nat} {pf : Option Rat} {t : State} (ht : stepLut count pf s = .ok t) :
    t.Steady :=
  ((h.pfdSample count pf).ctrlLut _ _).lutGetFreq ht

protected theorem stepSdm (h : s.Steady) (count : Nat) (pf : Option Rat) : (stepSdm count pf s).Steady :=
  ((h.pfdSample count pf).ctrlSdm _ _).setSdm _

/-- An operation that commits keeps the invariant where its computation does: it presents what it computed, or takes the
exception in the state it began in (R111). -/
theorem inv_of_commit_map (h : s.Steady) {t : State} {u : Result} {f : State → State} {r : Except Trap State}
    (hf : ∀ v, v.Steady → (f v).Steady) (hr : ∀ v, r = .ok v → v.Steady) (ht : commit s u (f <$> r) = .next t) :
    t.Inv := by
  rcases commit_map_eq_next.1 ht with ⟨v, hv, rfl⟩ | ⟨c, -, rfl⟩
  · exact (hf v (hr v hv)).inv
  · exact h.inv_raiseConfigurationError c u

theorem inv_of_commit_pllWrite (h : s.Steady) {t : State} {u : Result} {r : PllRegs}
    (ht : commit s u (presentFreq <$> pllWrite r s) = .next t) : t.Inv :=
  h.inv_of_commit_map (fun _ hv => hv.present _) (fun _ => h.pllWrite) ht

end State.Steady

/-! ## Where a run starts (10_state R29, 70_reset_and_hazards R100, R120) -/

/-- Free registers are kept within their widths (R21, R23). -/
theorem withinWidths_of_regs {s : State} {r : Regs} (h : s.regs = withinWidths s.cfg r) : s.WithinWidths := by
  have hpfd : s.pfd = (withinWidths s.cfg r).pfd := congrArg Regs.pfd h
  have hdco : s.dco = (withinWidths s.cfg r).dco := congrArg Regs.dco h
  rw [State.WithinWidths, hpfd, hdco]
  exact ⟨Nat.mod_lt _ (Nat.two_pow_pos _), Nat.le_of_lt_succ (Nat.mod_lt _ (Nat.succ_pos _))⟩

/-- The reset values meet the invariant under a valid configuration: `PLL0` is legal, the accumulators and the count are 0,
and the block is unlocked with a full counter. -/
theorem resetRegs_steady {s : State} (hv : ConfigValid s.cfg) (hregs : s.regs = resetRegs s.cfg)
    (hr : s.Running) : s.Steady := by
  have hpll : s.pll = resetPll s.cfg := congrArg Regs.pll hregs
  have hpfd : s.pfd = (resetRegs s.cfg).pfd := congrArg Regs.pfd hregs
  have hctrl : s.ctrl = (resetRegs s.cfg).ctrl := congrArg Regs.ctrl hregs
  have hdco : s.dco = (resetRegs s.cfg).dco := congrArg Regs.dco hregs
  have hspan := hv.windupSpan_pos.le
  obtain ⟨hki, hkii⟩ := hv.gains_nonneg
  exact {
    running := hr
    widths := by
      rw [State.WithinWidths, hpfd, hdco]
      exact ⟨Nat.two_pow_pos _, le_rfl⟩
    valid := hv
    pll := by
      rw [State.PllLegal, hpll, resetPll_setting hv]
      exact ⟨hv.pll0_legal, rfl⟩
    windup := by
      rw [State.WindupContained, hctrl]
      exact ⟨fun _ => by simpa [resetRegs] using div_nonneg hspan hki,
        fun _ => by simpa [resetRegs] using div_nonneg hspan hkii⟩
    lock := by
      rw [State.LockLegal, hdco]
      exact nofun }

theorem powerOn_inv (c : Config) (ops : List Frame) : (State.powerOn c ops).Inv :=
  ⟨withinWidths_of_regs (r := Config.powerOnRegs c) rfl, nofun, fun hr => nomatch hr.1⟩

theorem afterReset_steady {c : Config} (h : ConfigValid c) : (State.afterReset c).Steady :=
  resetRegs_steady h rfl ⟨rfl, rfl⟩

theorem base_valid : ConfigValid Config.base := by decide +kernel

/-- Settles O48: free registers are within their widths, and the reset values meet every part of the invariant. -/
theorem resetMeetsInvariant : Obligations.ResetMeetsInvariant :=
  have hreset {c : Config} (h : ConfigValid c) :
      (State.afterReset c).Inv ∧ (State.afterReset c).Running ∧ (State.afterReset c).Unfaulted :=
    ⟨(afterReset_steady h).inv, (afterReset_steady h).running, rfl⟩
  ⟨powerOn_inv, fun _ => hreset, hreset base_valid⟩

/-! ## Every step keeps the invariant -/

/-- `RESET` meets the invariant from every state: it reads none (R100). -/
theorem execReset_inv {s t : State} (h : exec .reset s = .next t) : t.Inv := by
  rcases execReset_eq_next.1 h with ⟨hv, rfl⟩ | ⟨c, -, rfl⟩
  · exact State.Steady.inv (resetRegs_steady hv rfl ⟨rfl, rfl⟩)
  · exact ⟨withinWidths_of_regs (r := Config.failedResetRegs s.cfg) rfl, fun _ _ => rfl, fun hr => nomatch hr.2⟩

/-- Every operation but `RESET` starts in a running block, so in a steady one, and each of its writes keeps it steady. -/
theorem exec_keeps_inv {i : Instr} {s t : State} (hs : s.Inv) (h : exec i s = .next t) : t.Inv := by
  cases i with
  | reset => exact execReset_inv h
  | pllUpdateAll | pllUpdateFrac | pllUpdateFracReg | pllCalcFreq =>
    obtain ⟨hr, h⟩ := whenRunning_eq_next.1 h
    exact (hs.steady hr).inv_of_commit_pllWrite h
  | pfdGetError =>
    obtain ⟨hr, -, rfl⟩ := execPfdGetError_eq_next.1 h
    exact (((hs.steady hr).pfdSample _ _).present _).inv
  | ctrlCore =>
    obtain ⟨hr, rfl⟩ := execCtrlCore_eq_next.1 h
    exact (((hs.steady hr).ctrlCore _ _).present _).inv
  | ctrlLut =>
    obtain ⟨hr, -, rfl⟩ := execCtrlLut_eq_next.1 h
    exact (((hs.steady hr).ctrlLut _ _).present _).inv
  | ctrlSdm =>
    obtain ⟨hr, -, rfl⟩ := execCtrlSdm_eq_next.1 h
    exact (((hs.steady hr).ctrlSdm _ _).present _).inv
  | lutGetFreq =>
    obtain ⟨hr, -, h⟩ := whenVariant_eq_next.1 h
    have hst := hs.steady hr
    exact hst.inv_of_commit_map (fun _ hv => hv.present _) (fun _ => hst.lutGetFreq) h
  | sdmSetPoint =>
    obtain ⟨hr, -, rfl⟩ := execSdmSetPoint_eq_next.1 h
    exact (((hs.steady hr).setSdm _).present _).inv
  | sdmTick =>
    obtain ⟨hr, -, h⟩ := whenVariant_eq_next.1 h
    have hst := hs.steady hr
    exact hst.inv_of_commit_map (fun _ hv => hv.present _) (fun _ => hst.sdmTick) h
  | stepLut =>
    obtain ⟨hr, -, h⟩ := whenVariant_eq_next.1 h
    have hst := hs.steady hr
    exact hst.inv_of_commit_map (fun _ hv => hv.present _) (fun _ => hst.stepLut) (whenPositive_eq_next.1 h).2
  | stepSdm =>
    obtain ⟨hr, -, -, rfl⟩ := execStepSdm_eq_next.1 h
    exact (((hs.steady hr).stepSdm _ _).present _).inv
  | observe =>
    obtain ⟨hr, rfl⟩ := execObserve_eq_next.1 h
    exact ((hs.steady hr).present _).inv
  | reserved => exact nomatch h

/-- Settles O47: taking the head off the host's list touches no register, and every operation keeps the invariant. -/
theorem everyStepKeepsInvariant : Obligations.EveryStepKeepsInvariant := by
  intro s t hs h
  obtain ⟨fr, rest, -, hexec⟩ := step_eq_next.1 h
  have hrest : State.Inv { s with input := rest } := hs
  exact exec_keeps_inv hrest hexec

/-! ## What the `PLL_` operations leave unchanged (10_state R20) -/

/-- A `PLL_` operation writes `S.pll` and the results, or takes the exception. -/
theorem commit_pllWrite_frame {s t : State} {r : PllRegs} {u : Result}
    (h : commit s u (presentFreq <$> pllWrite r s) = .next t) :
    t.cfg = s.cfg ∧ t.pfd = s.pfd ∧ t.ctrl = s.ctrl ∧ t.dco = s.dco ∧ t.sdm = s.sdm ∧
      t.started = s.started ∧ t.input = s.input ∧ ∀ a, lutRead t.cfg a = lutRead s.cfg a := by
  rcases commit_pllWrite_eq_next.1 h with ⟨-, rfl⟩ | ⟨c, -, rfl⟩ <;>
    exact ⟨rfl, rfl, rfl, rfl, rfl, rfl, rfl, fun _ => rfl⟩

/-- `S.pll` after a `PLL_` operation: the fields it is to write with some frequency, or, after the exception, as before. -/
theorem commit_pllWrite_pll {s t : State} {r : PllRegs} {u : Result}
    (h : commit s u (presentFreq <$> pllWrite r s) = .next t) :
    (∃ v, t.pll = { r with outFreq := v }) ∨ t.pll = s.pll := by
  rcases commit_pllWrite_eq_next.1 h with ⟨-, rfl⟩ | ⟨c, -, rfl⟩
  · exact .inl ⟨_, rfl⟩
  · exact .inr rfl

/-- A fractional update keeps the integer fields (R53). -/
theorem commit_pllUpdateFrac_integers {s t : State} {f p : BitVec 8} {en : Bool} {u : Result}
    (h : commit s u (presentFreq <$> pllUpdateFrac f p en s) = .next t) :
    t.pll.F = s.pll.F ∧ t.pll.R = s.pll.R ∧ t.pll.OD = s.pll.OD ∧ t.pll.ACD = s.pll.ACD := by
  rcases commit_pllWrite_pll h with ⟨v, hp⟩ | hp <;> simp [hp]

/-- Settles O50: each `PLL_` operation is one write of `S.pll`, or the exception. -/
theorem pllOperationsFrame : Obligations.PllOperationsFrame := by
  intro s t
  refine ⟨fun F R OD ACD f p h => ?_, fun f p en h => ?_, fun w h => ?_, fun h => ?_⟩
  all_goals replace h := (whenRunning_eq_next.1 h).2
  · refine ⟨commit_pllWrite_frame h, ?_⟩
    rcases commit_pllWrite_pll h with ⟨v, hp⟩ | hp <;> simp [hp]
  · exact ⟨commit_pllWrite_frame h, commit_pllUpdateFrac_integers h⟩
  · exact ⟨commit_pllWrite_frame h, commit_pllUpdateFrac_integers h⟩
  · refine ⟨commit_pllWrite_frame h, ?_⟩
    rcases commit_pllWrite_pll h with ⟨v, hp⟩ | hp <;> simp [hp]

/-! ## What the detector, the controller and the set-point leave unchanged (10_state R26, R27) -/

/-- `t` is `s` but for the detector, the controller, the modulator and the results. -/
def State.DiffersInControl (s t : State) : Prop :=
  t = { s with pfd := t.pfd, ctrl := t.ctrl, sdm := t.sdm, draws := t.draws, result := t.result }

/-- The registers and the bookkeeping that such a state keeps. -/
theorem State.DiffersInControl.frame {s t : State} (h : s.DiffersInControl t) :
    t.cfg = s.cfg ∧ t.pll = s.pll ∧ t.dco = s.dco ∧ t.fault = s.fault ∧ t.faultCause = s.faultCause ∧
      t.faultSeen = s.faultSeen ∧ t.started = s.started ∧ t.input = s.input ∧
      ∀ a, lutRead t.cfg a = lutRead s.cfg a := by
  rw [h]
  exact ⟨rfl, rfl, rfl, rfl, rfl, rfl, rfl, rfl, fun _ => rfl⟩

/-- Settles O51: each of these operations writes the register groups it is given and the results. -/
theorem detectorAndControllerFrame : Obligations.DetectorAndControllerFrame := by
  intro s t
  refine ⟨fun n pf h => ?_, fun e fl h => ?_, fun e fl h => ?_, fun e fl h => ?_, fun v h => ?_, fun n pf h => ?_,
    fun h => ?_⟩
  · obtain ⟨-, -, rfl⟩ := execPfdGetError_eq_next.1 h
    exact ⟨State.DiffersInControl.frame rfl, rfl, rfl⟩
  · obtain ⟨-, rfl⟩ := execCtrlCore_eq_next.1 h
    exact ⟨State.DiffersInControl.frame rfl, rfl, rfl, rfl⟩
  · obtain ⟨-, -, rfl⟩ := execCtrlLut_eq_next.1 h
    rw [ctrlLut_eq]
    exact ⟨State.DiffersInControl.frame rfl, rfl, rfl, rfl⟩
  · obtain ⟨-, -, rfl⟩ := execCtrlSdm_eq_next.1 h
    exact ⟨State.DiffersInControl.frame rfl, rfl, rfl⟩
  · obtain ⟨-, -, rfl⟩ := execSdmSetPoint_eq_next.1 h
    exact ⟨State.DiffersInControl.frame rfl, rfl, rfl, rfl⟩
  · obtain ⟨-, -, -, rfl⟩ := execStepSdm_eq_next.1 h
    exact ⟨State.DiffersInControl.frame rfl, rfl⟩
  · obtain ⟨-, rfl⟩ := execObserve_eq_next.1 h
    exact ⟨State.DiffersInControl.frame rfl, rfl, rfl, rfl, rfl⟩

/-! ## What the oscillator's operations leave unchanged (10_state R20, R27) -/

/-- `t` keeps the configuration, the integer fields of `S.pll`, `started` and the host's list of `s`; anything else may
differ. -/
def State.KeepsIntegerFields (s t : State) : Prop :=
  t = { t with
    cfg := s.cfg, started := s.started, input := s.input
    pll := { t.pll with F := s.pll.F, R := s.pll.R, OD := s.pll.OD, ACD := s.pll.ACD } }

theorem State.KeepsIntegerFields.frame {s t : State} (h : s.KeepsIntegerFields t) :
    t.cfg = s.cfg ∧ t.pll.F = s.pll.F ∧ t.pll.R = s.pll.R ∧ t.pll.OD = s.pll.OD ∧ t.pll.ACD = s.pll.ACD ∧
      t.started = s.started ∧ t.input = s.input ∧ ∀ a, lutRead t.cfg a = lutRead s.cfg a := by
  rw [h]
  exact ⟨rfl, rfl, rfl, rfl, rfl, rfl, rfl, fun _ => rfl⟩

/-- What a successful `STEP_LUT` leaves unchanged (R101): what its last part keeps, `LUT_GET_FREQ`, after the detector and
the controller have written. -/
theorem stepLut_frame {s t : State} {count : Nat} {pf : Option Rat} (h : stepLut count pf s = .ok t) :
    s.KeepsIntegerFields t ∧ t.sdm = s.sdm ∧ t.ctrl.iirY = s.ctrl.iirY := by
  have hlut := lutGetFreq_frame h
  rw [ctrlLut_eq] at hlut
  rw [hlut]
  exact ⟨rfl, rfl, rfl⟩

/-- Settles O52: each of these operations ends with a fractional update, or takes the exception. -/
theorem oscillatorOperationsFrame : Obligations.OscillatorOperationsFrame := by
  intro s t
  refine ⟨fun v x h => ?_, fun h => ?_, fun n pf h => ?_⟩
  · obtain ⟨-, -, ⟨u, hu, rfl⟩ | ⟨c, -, rfl⟩⟩ := execLutGetFreq_eq_next.1 h
    · rw [lutGetFreq_frame hu]
      exact ⟨State.KeepsIntegerFields.frame rfl, rfl, rfl, rfl⟩
    · exact ⟨State.KeepsIntegerFields.frame rfl, rfl, rfl, rfl⟩
  · obtain ⟨-, -, ⟨u, hu, rfl⟩ | ⟨c, -, rfl⟩⟩ := execSdmTick_eq_next.1 h
    · obtain ⟨-, rfl⟩ := sdmTick_eq_ok.1 hu
      exact ⟨State.KeepsIntegerFields.frame rfl, rfl, rfl, rfl⟩
    · exact ⟨State.KeepsIntegerFields.frame rfl, rfl, rfl, rfl⟩
  · obtain ⟨-, -, -, ⟨u, hu, rfl⟩ | ⟨c, -, rfl⟩⟩ := execStepLut_eq_next.1 h
    · obtain ⟨hfr, hsdm, hiir⟩ := stepLut_frame hu
      exact ⟨hfr.frame, hsdm, hiir⟩
    · exact ⟨State.KeepsIntegerFields.frame rfl, rfl, rfl⟩

end Sys2Proof.Machine
end

section
/-! PROOFS of the memory family (20_memory): what the control agent and the modulator agent share, and what they do not
(R37, R38). -/

namespace Sys2Proof.Machine

/-! ## The modulator agent and the set-point (20_memory R38, 44_sdm_dco R91) -/

/-- The modulator input with the class of the set-point written out (R91). -/
theorem sdmClamped_eq (c : Config) (v : Int) :
    sdmClamped c v = if sdmInMax c < v then sdmInMax c else if v < sdmInMin c then sdmInMin c else v := by
  unfold sdmClamped sdmSample
  split_ifs <;> rfl

theorem sdmSample_of_above {c : Config} {v : Int} (h : sdmInMax c < v) : sdmSample c v = .high := if_pos h

theorem sdmSample_of_below {c : Config} {v : Int} (hmax : ¬ sdmInMax c < v) (hmin : v < sdmInMin c) :
    sdmSample c v = .low := (if_neg hmax).trans (if_pos hmin)

/-- What a tick writes in the modulator and in the lock status (R93): what `SDM_UPDATE` returns, beside the set-point as it
stands, and the lock detector's verdict on that set-point. -/
theorem sdmTick_writes {s t : State} (h : sdmTick s = .ok t) :
    t.sdm = { s.sdm with
      x1 := (tickUpdate s).x1, x2 := (tickUpdate s).x2, x3 := (tickUpdate s).x3, lastStep := (tickUpdate s).step } ∧
    t.dco.lockStatus = (lockUpdate s.cfg s.dco (sdmSample s.cfg s.sdm.setpoint)).lockStatus := by
  obtain ⟨-, rfl⟩ := sdmTick_eq_ok.1 h
  exact ⟨rfl, rfl⟩

/-- Settles O31: the set-point write leaves `S.pll` legal, so the tick after it succeeds, and every value it writes is
computed from the set-point it finds. -/
theorem setPointVisibleAtNextTick : Obligations.SetPointVisibleAtNextTick := by
  intro s v hr hv hp
  obtain ⟨u, hu⟩ := sdmTick_of_legal (s := (sdmSetPoint v s).present .noPorts) hp.1
  obtain ⟨hsdm, hlock⟩ := sdmTick_writes hu
  have hinput : tickUpdate ((sdmSetPoint v s).present .noPorts) =
      sdmUpdate s.cfg s.sdm.x1 s.sdm.x2 s.sdm.x3 (sdmClamped s.cfg v) := rfl
  have hstatus : u.dco.lockStatus = (lockUpdate s.cfg s.dco (sdmSample s.cfg v)).lockStatus := hlock
  refine ⟨(sdmSetPoint v s).present .noPorts, presentTick u, execSdmSetPoint_eq_next.2 ⟨hr, hv, rfl⟩,
    execSdmTick_eq_next.2 ⟨hr, hv, .inl ⟨u, hu, rfl⟩⟩, ?_⟩
  have hmod : (presentTick u).sdm = u.sdm := rfl
  rw [hmod, hsdm, hinput, sdmClamped_eq]
  refine ⟨rfl, rfl, rfl, rfl, rfl, fun hmax => ?_, fun hmax hmin => ?_⟩
  · exact hstatus.trans (by rw [sdmSample_of_above hmax, lockUpdate])
  · exact hstatus.trans (by rw [sdmSample_of_below hmax hmin, lockUpdate])

/-! ## The modulator agent and the control agent's registers (20_memory R37) -/

/-- A tick fails only by raising the first check that the live integer fields fail (R50, R53). -/
theorem sdmTick_eq_error {s : State} {e : Trap} :
    sdmTick s = .error e ↔ ∃ c, settingError (inputHz s.cfg) s.pll.setting = some c ∧ e = .raises c :=
  map_eq_error.trans pllWrite_eq_error

/-- Settles O32: whether a tick raises, and what it writes, are functions of the configuration, `S.pll`, `S.dco` and
`S.sdm`; where it raises, the exception discards every write. -/
theorem tickIgnoresControlAgent : Obligations.TickIgnoresControlAgent := by
  intro s t a b h
  obtain ⟨hr, hv, ⟨u, hu, rfl⟩ | ⟨c, hc, rfl⟩⟩ := execSdmTick_eq_next.1 h
  · obtain ⟨hp, rfl⟩ := sdmTick_eq_ok.1 hu
    exact ⟨rfl, rfl, execSdmTick_eq_next.2 ⟨hr, hv, .inl ⟨_, sdmTick_eq_ok.2 ⟨hp, rfl⟩, rfl⟩⟩⟩
  · have hp := sdmTick_eq_error.1 hc
    exact ⟨rfl, rfl, execSdmTick_eq_next.2 ⟨hr, hv, .inr ⟨c, sdmTick_eq_error.2 hp, rfl⟩⟩⟩

/-! ## The control agent and the modulator's registers (20_memory R37, 45_orchestrator_system R102) -/

/-- The state with other values in the modulator registers and in `S.pll` (R24, R20). -/
def State.withModulator (s : State) (a b c : Int) (k : Fin 9) (r : PllRegs) : State :=
  (s.setPll r).setSdm { s.sdm with x1 := a, x2 := b, x3 := c, lastStep := k }

/-- What a control period leaves unchanged (R102): `S.pll`, `S.dco`, and all of `S.sdm` but the set-point. -/
theorem stepSdm_keeps_modulator (count : Nat) (pf : Option Rat) (s : State) :
    (stepSdm count pf s).pll = s.pll ∧ (stepSdm count pf s).dco = s.dco ∧
      (stepSdm count pf s).sdm = { s.sdm with setpoint := (stepSdm count pf s).sdm.setpoint } := ⟨rfl, rfl, rfl⟩

/-- The detector reads `S.pfd`, the controller `S.ctrl` and the detector's error, and the set-point is the controller's
value (R102): none of the three reads the modulator registers or `S.pll`. -/
theorem stepSdm_withModulator (count : Nat) (pf : Option Rat) (s : State) (a b c : Int) (k : Fin 9) (r : PllRegs) :
    stepSdm count pf (s.withModulator a b c k r) = (stepSdm count pf s).withModulator a b c k r := rfl

/-- The results of a control period are read from `S.dco` (R102). -/
theorem presentFreqLock_withModulator (s : State) (a b c : Int) (k : Fin 9) (r : PllRegs) :
    presentFreqLock (s.withModulator a b c k r) = (presentFreqLock s).withModulator a b c k r := rfl

/-- Settles O33: the writes of a control period, and then its results, commute with writing the modulator registers and
`S.pll`. -/
theorem periodIgnoresModulator : Obligations.PeriodIgnoresModulator := by
  intro s t count pf a b c k r h
  obtain ⟨hr, hv, hp, rfl⟩ := execStepSdm_eq_next.1 h
  obtain ⟨hpll, hdco, hsdm⟩ := stepSdm_keeps_modulator count pf s
  have hperiod : exec (.stepSdm count pf) (s.withModulator a b c k r) =
      .next ((presentFreqLock (stepSdm count pf s)).withModulator a b c k r) :=
    execStepSdm_eq_next.2 ⟨hr, hv, hp, by rw [stepSdm_withModulator, presentFreqLock_withModulator]⟩
  exact ⟨hpll, hdco, hsdm, hperiod⟩

end Sys2Proof.Machine
end

section
/-! PROOFS of the encoding family (30_encoding): the decoder and the encoder (R40, R41, R47), the packings of the register
words (R44, R45), the lock status on its port (R43), and the refusals of R46. -/

namespace Sys2Proof

/-! ## The decoder and the encoder (30_encoding R40, R41, R47) -/

theorem bitFlag_ofBool (b : Bool) : bitFlag (BitVec.ofBool b) = b := by cases b <;> rfl

/-- An operation is read back from its ports operand by operand; only a flag passes through another type (R41). -/
theorem decode_encode (i : Instr) : decode (encode i) = i := by
  cases i with
  | pllUpdateFrac f p en => exact congrArg (Instr.pllUpdateFrac f p) (bitFlag_ofBool en)
  | ctrlCore error fl => exact congrArg (Instr.ctrlCore error) (bitFlag_ofBool fl)
  | ctrlLut error fl => exact congrArg (Instr.ctrlLut error) (bitFlag_ofBool fl)
  | ctrlSdm error fl => exact congrArg (Instr.ctrlSdm error) (bitFlag_ofBool fl)
  | lutGetFreq v ctrl => exact congrArg (Instr.lutGetFreq · ctrl) (bitFlag_ofBool v)
  | _ => rfl

/-- Each branch of the decoder answers an operation whose selector is the branch's own number; the last branch is left with
the one number that four bits still allow (R47). -/
theorem selector_decode (fr : Frame) : selector (decode fr) = fr.op := by
  have hlt : fr.op.toNat < 16 := fr.op.isLt
  apply BitVec.eq_of_toNat_eq
  unfold decode
  split <;> simp only [selector, BitVec.ofNat_eq_ofNat, BitVec.toNat_ofNat, imp_false] at * <;> omega

/-- Settles O1: an operation's operands come back port by port, and a branch of the decoder keeps its number. -/
theorem decodeEncodeAgree : Obligations.DecodeEncodeAgree := ⟨decode_encode, selector_decode⟩

end Sys2Proof

namespace Sys2Proof.Machine

/-! ## The 16-bit packing (30_encoding R44) -/

/-- `Pack16` is concatenation, `f` above `p`. -/
theorem pack16_eq_append (f p : BitVec 8) : pack16 f p = f ++ p := by
  rw [BitVec.append_def, BitVec.shiftLeftZeroExtend_eq, BitVec.setWidth'_eq, pack16]

theorem wordF_pack16 (f p : BitVec 8) : wordF (pack16 f p) = f := by
  rw [wordF, pack16_eq_append, BitVec.extractLsb'_append_eq_left]

theorem wordP_pack16 (f p : BitVec 8) : wordP (pack16 f p) = p := by
  rw [wordP, pack16_eq_append, BitVec.extractLsb'_append_eq_right]

theorem toNat_pack16 (f p : BitVec 8) : (pack16 f p).toNat = 256 * f.toNat + p.toNat := by
  rw [pack16_eq_append, BitVec.toNat_append, ← Nat.shiftLeft_add_eq_or_of_lt p.isLt, Nat.shiftLeft_eq, Nat.mul_comm]

theorem pack16_wordF_wordP (w : TableWord) : pack16 (wordF w) (wordP w) = w := by
  rw [pack16_eq_append]
  exact BitVec.extractLsb'_append_extractLsb'

/-- Settles O4: the packing is concatenation, which the two halves undo. -/
theorem tablePackingsAreInverse : Obligations.TablePackingsAreInverse :=
  ⟨fun f p => ⟨wordF_pack16 f p, wordP_pack16 f p, toNat_pack16 f p⟩, fun w => ⟨pack16_wordF_wordP w, rfl, rfl⟩, by decide⟩

/-! ## The 32-bit fractional word (30_encoding R45) -/

/-- The fields of a fractional word are those of its lower half as a 16-bit encoding (R44, R45). -/
theorem fracWordF_eq_wordF (w : FracWord) : fracWordF w = wordF (w.setWidth 16) :=
  (BitVec.extractLsb'_setWidth_of_le (by decide)).symm

theorem fracWordP_eq_wordP (w : FracWord) : fracWordP w = wordP (w.setWidth 16) :=
  (BitVec.extractLsb'_setWidth_of_le (by decide)).symm

/-- With the enable in the upper half, the lower half of a packed word is the 16-bit packing. -/
theorem setWidth_pack32 {k : Nat} (hk : 16 ≤ k) (f p : BitVec 8) (en : Bool) :
    (pack32 k f p en).setWidth 16 = pack16 f p := by
  ext j hj
  have hjk : j < k := by omega
  simp [pack32, pack16, hjk]

/-- The upper half of a packed word holds the enable at its bit and zeros elsewhere. -/
theorem getLsbD_pack32_upper {k j : Nat} (hj : 16 ≤ j) (hj' : j < 32) (f p : BitVec 8) (en : Bool) :
    (pack32 k f p en).getLsbD j = (decide (j = k) && en) := by
  have hf : f.getLsbD (j - 8) = false := BitVec.getLsbD_of_ge _ _ (by omega)
  have hp : p.getLsbD j = false := BitVec.getLsbD_of_ge _ _ (by omega)
  obtain rfl | hjk := eq_or_ne j k
  · simp [pack32, hf, hp, hj']
  · have hshift : ¬ (k ≤ j ∧ j - k = 0) := by omega
    simp_all [pack32]

theorem fracWordF_pack32 {k : Nat} (hk : 16 ≤ k) (f p : BitVec 8) (en : Bool) : fracWordF (pack32 k f p en) = f := by
  rw [fracWordF_eq_wordF, setWidth_pack32 hk, wordF_pack16]

theorem fracWordP_pack32 {k : Nat} (hk : 16 ≤ k) (f p : BitVec 8) (en : Bool) : fracWordP (pack32 k f p en) = p := by
  rw [fracWordP_eq_wordP, setWidth_pack32 hk, wordP_pack16]

theorem fracWordEn_pack32 {k : Nat} (hk : 16 ≤ k) (hk' : k < 32) (f p : BitVec 8) (en : Bool) :
    fracWordEn k (pack32 k f p en) = en := by
  rw [fracWordEn, getLsbD_pack32_upper hk hk', decide_eq_true rfl, Bool.true_and]

theorem getLsbD_pack32_reserved {k j : Nat} (hj : 16 ≤ j) (hj' : j < 32) (hjk : j ≠ k) (f p : BitVec 8) (en : Bool) :
    (pack32 k f p en).getLsbD j = false := by
  rw [getLsbD_pack32_upper hj hj', decide_eq_false hjk, Bool.false_and]

/-- Unpacking reads bits 15:0 and the enable bit, no other (R45). -/
theorem fracWord_congr {k : Nat} {w v : FracWord} (h : ∀ j, j < 16 ∨ j = k → w.getLsbD j = v.getLsbD j) :
    fracWordF w = fracWordF v ∧ fracWordP w = fracWordP v ∧ fracWordEn k w = fracWordEn k v := by
  have hlow : w.setWidth 16 = v.setWidth 16 := by
    ext j hj
    simpa using h j (.inl hj)
  simp only [fracWordF_eq_wordF, fracWordP_eq_wordP, hlow, true_and]
  exact h k (.inr rfl)

/-- Settles O5: the lower half of a packed word is the 16-bit packing, and the upper half is the enable bit alone. -/
theorem fractionalWordPacking : Obligations.FractionalWordPacking := by
  refine ⟨fun k hk hk' => ⟨fun f p en => ?_, fun w v => fracWord_congr⟩, by decide⟩
  exact ⟨fracWordF_pack32 hk f p en, fracWordP_pack32 hk f p en, fracWordEn_pack32 hk hk' f p en,
    fun j hj hj' hjk => getLsbD_pack32_reserved hj hj' hjk f p en⟩

/-! ## The lock status on its port (30_encoding R43) -/

theorem LockStatus.code_toInt (l : LockStatus) : l.code.toInt = l.toInt := by cases l <;> rfl

theorem LockStatus.code_ne_two (l : LockStatus) : l.code ≠ 0b10 := by cases l <;> decide

/-- Settles O6, by the three values of the lock status. -/
theorem lockPortCodes : Obligations.LockPortCodes :=
  ⟨rfl, rfl, rfl, fun l => ⟨l.code_ne_two, l.code_toInt⟩⟩

/-! ## Refusals (30_encoding R46) -/

/-- Settles O42: the reserved selector's meaning is the refusal, whatever the state (R46 (a)). -/
theorem reservedSelectorIsRefused : Obligations.ReservedSelectorIsRefused := fun _ => rfl

/-- A period fraction that is not positive is refused (R46 (d), R63). -/
theorem whenPositive_of_nonpos {pf : Option Rat} (h : pf.getD 1 ≤ 0) (k : Host.Outcome State Fault Refusal) :
    whenPositive pf k = .refused .periodFractionNotPositive := if_neg (not_lt.2 h)

/-- Settles O43: the variant is checked before the period fraction (log 20), and each check refuses by its own lemma. -/
theorem wrongVariantAndFractionAreRefused : Obligations.WrongVariantAndFractionAreRefused := by
  intro s hr
  refine ⟨fun hsdm e fl v x n pf => ?_, fun hlut e fl v n pf => ?_, fun n q hq => ?_⟩
  · have hother : s.cfg.variant ≠ .lut := by simp [hsdm]
    exact ⟨whenVariant_of_other hr hother _, whenVariant_of_other hr hother _, whenVariant_of_other hr hother _⟩
  · have hother : s.cfg.variant ≠ .sdm := by simp [hlut]
    exact ⟨whenVariant_of_other hr hother _, whenVariant_of_other hr hother _, whenVariant_of_other hr hother _,
      whenVariant_of_other hr hother _⟩
  · have hpf : (some q).getD 1 ≤ 0 := hq
    exact ⟨(whenRunning_of_running hr _).trans (whenPositive_of_nonpos hpf _),
      fun hlut => (whenVariant_of_running hr hlut _).trans (whenPositive_of_nonpos hpf _),
      fun hsdm => (whenVariant_of_running hr hsdm _).trans (whenPositive_of_nonpos hpf _)⟩

end Sys2Proof.Machine
end

section
/-! PROOFS of the register family (40_pll_register_model): what `CalcFrequency` checks and computes (R50), the order of the
frequencies (R55), and the four `PLL_` operations (R51 to R54). -/

namespace Sys2Proof.Machine

/-! ## The checks of `CalcFrequency` (40_pll_register_model R50) -/

/-- The check that raises is the first that fails: those before it passed. -/
theorem settingError_eq_some {hz : Hz} {q : PllSetting} {c : Cause} :
    settingError hz q = some c ↔
      (c = .pllFRange ∧ (q.F < 1 ∨ 8191 < q.F)) ∨
      (c = .pllRRange ∧ (1 ≤ q.F ∧ q.F ≤ 8191) ∧ 63 < q.R) ∨
      (c = .pllOdRange ∧ (1 ≤ q.F ∧ q.F ≤ 8191) ∧ q.R ≤ 63 ∧ 7 < q.OD) ∨
      (c = .pllVcoRange ∧ ((1 ≤ q.F ∧ q.F ≤ 8191) ∧ q.R ≤ 63 ∧ q.OD ≤ 7) ∧
        (vcoHz hz q < Config.vcoMinHz ∨ Config.vcoMaxHz < vcoHz hz q)) := by
  simp only [← not_le, ← not_and_or, settingError]
  by_cases hF : 1 ≤ q.F ∧ q.F ≤ 8191
  · by_cases hR : q.R ≤ 63
    · by_cases hOD : q.OD ≤ 7
      · by_cases hV : Config.vcoMinHz ≤ vcoHz hz q ∧ vcoHz hz q ≤ Config.vcoMaxHz <;>
          simp [hF, hR, hOD, hV, eq_comm]
      · simp [hF, hR, hOD, eq_comm]
    · simp [hF, hR, eq_comm]
  · simp [hF, eq_comm]

/-- Settles O7: a cause is raised by the first failing check, and a value returned where none fails. -/
theorem calcFrequencyChecksThenComputes : Obligations.CalcFrequencyChecksThenComputes := by
  intro hz q legal vco frac
  have hcause (c : Cause) := (calcFrequency_eq_error (hz := hz) (q := q) (c := c)).trans settingError_eq_some
  refine ⟨(hcause _).trans (by simp), (hcause _).trans (by simp), (hcause _).trans (by simp), ?_, fun v => ?_⟩
  · refine (hcause _).trans ?_
    simp only [reduceCtorEq, false_and, true_and, false_or]
    exact Iff.rfl
  · rw [calcFrequency_eq_ok, settingError_eq_none]
    simp only [legal, and_assoc]
    exact Iff.rfl

/-! ## The order of the frequencies (40_pll_register_model R55) -/

/-- The 8-bit fields bound the ratio: numerator and denominator lie between 1 and 256 (R55 (c)). -/
theorem fracPart_enabled_mem_Icc (q : PllSetting) (f p : BitVec 8) :
    fracPart { q with f := f, p := p, en := true } ∈ Set.Icc (1 / 256) 256 := by
  have hf : (f.toNat : Rat) + 1 ≤ 256 := by exact_mod_cast f.isLt
  have hp : (p.toNat : Rat) + 1 ≤ 256 := by exact_mod_cast p.isLt
  have hf0 : (0 : Rat) ≤ f.toNat := Nat.cast_nonneg _
  have hp0 : (0 : Rat) ≤ p.toNat := Nat.cast_nonneg _
  simp only [fracPart, if_true]
  constructor
  · rw [div_le_div_iff₀ (by norm_num) (by positivity)]
    linarith
  · rw [div_le_iff₀ (by positivity)]
    linarith

/-- Settles O8: the result is `K * (F + 1 + frac)` with `K > 0`, and only `frac` depends on the fraction. -/
theorem frequencyIsMonotoneInFraction : Obligations.FrequencyIsMonotoneInFraction := by
  intro hz q f p f' p' hpos
  obtain ⟨hlo, hhi⟩ := fracPart_enabled_mem_Icc q f p
  refine ⟨unitHz_pos hpos q, ?_, outputHz_eq_unit hz _, ?_, hlo, hhi⟩
  · have hfrac : fracPart { q with f := f, p := p, en := false } = 0 := rfl
    rw [outputHz_eq_unit, hfrac, add_zero]
    rfl
  · exact (outputHz_le_iff hpos q f p f' p' true true).trans (fracPart_enabled_le_iff q f p f' p')

/-! ## The `PLL_` operations (40_pll_register_model R51 to R54) -/

/-- In a running block an operation that ends by writing `S.pll` stores and returns the frequency of the new fields. -/
theorem whenRunning_pllWrite_of_ok {s : State} {r : PllRegs} {v : Hz} (u : Result) (hr : s.Running)
    (h : calcFrequency (inputHz s.cfg) r.setting = .ok v) :
    whenRunning s (commit s u (presentFreq <$> pllWrite r s)) =
      .next { s with pll := { r with outFreq := v }, result := .freq v false } := by
  obtain ⟨hlegal, rfl⟩ := calcFrequency_eq_ok.1 h
  rw [whenRunning_of_running hr, pllWrite_of_legal hlegal]
  rfl

/-- Where the new fields are illegal, it takes the exception instead (60_exceptions R111). -/
theorem whenRunning_pllWrite_of_error {s : State} {r : PllRegs} {c : Cause} (u : Result) (hr : s.Running)
    (h : calcFrequency (inputHz s.cfg) r.setting = .error c) :
    whenRunning s (commit s u (presentFreq <$> pllWrite r s)) = .next (s.raiseConfigurationError c u) := by
  have hraise : pllWrite r s = .error (.raises c) := pllWrite_eq_error.2 ⟨c, calcFrequency_eq_error.1 h, rfl⟩
  rw [whenRunning_of_running hr, hraise, map_error, commit_raises]

/-- Settles O9: the operation is one write of `S.pll` with the six fields replaced. -/
theorem pllUpdateAllReplacesAllFields : Obligations.PllUpdateAllReplacesAllFields :=
  fun _ _ _ _ _ _ _ hr =>
    ⟨rfl, fun _ hv => whenRunning_pllWrite_of_ok _ hr hv, fun _ hc => ⟨_, whenRunning_pllWrite_of_error _ hr hc⟩⟩

/-- The checks do not read the fraction, so a legal setting has a frequency with any (R53). -/
theorem calcFrequency_fraction_of_legal {hz : Hz} {q : PllSetting} (h : settingError hz q = none) (f p : BitVec 8)
    (en : Bool) :
    calcFrequency hz { q with f := f, p := p, en := en } = .ok (outputHz hz { q with f := f, p := p, en := en }) :=
  calcFrequency_eq_ok.2 ⟨(settingError_fraction hz q f p en).trans h, rfl⟩

/-- Settles O10: a write of `S.pll` whose checks cannot fail, since they do not read the fraction. -/
theorem pllUpdateFracReplacesFraction : Obligations.PllUpdateFracReplacesFraction :=
  fun _ f p en hr hp =>
    have hv := calcFrequency_fraction_of_legal hp.1 f p en
    ⟨rfl, hv, whenRunning_pllWrite_of_ok _ hr hv⟩

/-- Settles O11: the operation is `PLL_UPDATE_FRAC` of the word's fields. -/
theorem pllUpdateFracRegUnpacksWord : Obligations.PllUpdateFracRegUnpacksWord := fun s word hr hp =>
  have heq := execPllUpdateFracReg_eq word s
  have hfrac := (pllUpdateFracReplacesFraction s _ _ _ hr hp).2.2
  ⟨rfl, heq, heq.trans hfrac⟩

/-- Settles O12: the operation writes `S.pll` with its own fields, which is no change where `out_freq` is current. -/
theorem pllCalcFreqIsIdempotent : Obligations.PllCalcFreqIsIdempotent := by
  refine ⟨rfl, fun s hr => ?_⟩
  have hok (v : Hz) (hv : calcFrequency (inputHz s.cfg) s.pll.setting = .ok v) :
      exec .pllCalcFreq s = .next { s with pll := { s.pll with outFreq := v }, result := .freq v false } :=
    whenRunning_pllWrite_of_ok _ hr hv
  exact ⟨hok, fun c hc => ⟨_, whenRunning_pllWrite_of_error _ hr hc⟩, fun hp => hok _ (calcFrequency_eq_ok.2 hp)⟩

end Sys2Proof.Machine
end

section
/-! PROOFS of the detector family (41_pfd): the increment modulo `2^W` (R61, R62), one call's writes (R61, R64, R65), the
signed-wrap alternative (R68), and what a run of calls counts (R67 (e)). -/

namespace Sys2Proof.Machine

/-! ## The increment and the error (41_pfd R61, R62) -/

theorem countModulus_cast (c : Config) : (countModulus c : Int) = 2 ^ c.countWidth := by
  simp [countModulus]

theorem countModulus_pos (c : Config) : 0 < countModulus c := Nat.two_pow_pos _

theorem rawIncrement_cast (c : Config) (last count : Nat) :
    (rawIncrement c last count : Int) = ((count : Int) - last) % countModulus c :=
  Int.toNat_of_nonneg (Int.emod_nonneg _ (Int.natCast_pos.2 (countModulus_pos c)).ne')

theorem rawIncrement_lt (c : Config) (last count : Nat) : rawIncrement c last count < countModulus c := by
  have h := Int.emod_lt_of_pos ((count : Int) - last) (Int.natCast_pos.2 (countModulus_pos c))
  rw [← rawIncrement_cast] at h
  exact_mod_cast h

/-- An increment depends on the counts through their low `W` bits only, so an advance of `n` gives `n mod 2^W` (R62). -/
theorem rawIncrement_advance (c : Config) (counter n : Nat) :
    rawIncrement c (counter % countModulus c) ((counter + n) % countModulus c) = n % countModulus c := by
  rw [← Int.natCast_inj, rawIncrement_cast]
  push_cast
  rw [Int.emod_sub_emod, Int.sub_emod_emod, add_sub_cancel_left]

/-- With `pf = 1` the error is an integer. -/
theorem pfdErrorValue_one (c : Config) (last count : Nat) :
    pfdErrorValue c last count 1 = ((rawIncrement c last count - expectedIncrementInt c : Int) : Rat) := by
  simp [pfdErrorValue]

/-- Settles O14: the increment of an advance, and the error's range from the increment's. -/
theorem incrementSurvivesWrap : Obligations.IncrementSurvivesWrap := by
  intro c last n hlast
  have hadvance : rawIncrement c last ((last + n) % countModulus c) = n % countModulus c := by
    simpa [Nat.mod_eq_of_lt hlast] using rawIncrement_advance c last n
  refine ⟨hadvance, fun hn => hadvance.trans (Nat.mod_eq_of_lt hn), fun count => ⟨_, pfdErrorValue_one c last count, ?_⟩⟩
  have hlt := rawIncrement_lt c last count
  omega

/-! ## One call of the detector (41_pfd R61, R64, R65) -/

theorem countPort_of_lt {c : Config} {count : Nat} (h : count < countModulus c) : countPort c count = count :=
  Nat.mod_eq_of_lt h

/-- A call with operands in their domains writes `S.pfd` and presents the error and the flag. -/
theorem execPfdGetError_of_positive {s : State} {count : Nat} {pf : Option Rat} (hr : s.Running)
    (hc : count < countModulus s.cfg) (hpf : 0 < pf.getD 1) :
    exec (.pfdGetError count pf) s =
      let error := pfdErrorValue s.cfg s.pfd.lastCount count (pf.getD 1)
      let fl := outOfRange s.cfg error
      .next { s with pfd := { lastCount := count, firstLoop := fl }, result := .pfdError error fl } := by
  rw [execPfdGetError_eq_next.2 ⟨hr, hpf, rfl⟩]
  simp [pfdSample, pfdSampleError, countPort_of_lt hc, periodFraction, State.setPfd, State.present]

/-- Settles O13: the call's writes, with the increment and the range test written out. -/
theorem pfdGetErrorResult : Obligations.PfdGetErrorResult := by
  intro s count pf hr hc E incRaw error fl
  have hraw : (rawIncrement s.cfg s.pfd.lastCount count : Int) = incRaw := by
    rw [rawIncrement_cast, countModulus_cast]
  have herror : pfdErrorValue s.cfg s.pfd.lastCount count (pf.getD 1) = error := by
    rw [pfdErrorValue, ← Int.cast_natCast, hraw]
    rfl
  refine ⟨rfl, fun hpf => ?_, fun hpf => (whenRunning_of_running hr _).trans (whenPositive_of_nonpos hpf _)⟩
  rw [execPfdGetError_of_positive hr hc hpf, herror]
  rfl

/-! ## The signed-wrap alternative (41_pfd R68) -/

/-- A configuration that passes check 5 meets the conditions of R66. -/
theorem pfdError_eq_none {c : Config} :
    pfdError c = none ↔ 0 < c.nominalOutputHz ∧ 0 < c.controlRateHz ∧ 0 ≤ c.ppmRange ∧ 1 ≤ c.countWidth ∧
      expectedIncrement c + errorThreshold c < countModulus c := by
  simp [pfdError]

/-- The threshold is at most the expected increment, where `PPM_RANGE` is at most the whole. -/
theorem errorThreshold_le {c : Config} (h : pfdError c = none) (hppm : c.ppmRange ≤ 1000000) :
    errorThreshold c ≤ expectedIncrement c := by
  obtain ⟨hhz, hrate, -⟩ := pfdError_eq_none.1 h
  have hE : 0 ≤ expectedIncrement c := (div_pos hhz hrate).le
  exact mul_le_of_le_one_left hE ((div_le_one (by norm_num)).2 hppm)

/-- The two errors agree modulo `2^W`. -/
theorem countModulus_dvd_signedWrapError_sub {c : Config} (last count : Nat) :
    (countModulus c : Int) ∣ signedWrapError c last count - (rawIncrement c last count - expectedIncrementInt c) := by
  have h := Int.dvd_emod_sub_self (x := rawIncrement c last count - expectedIncrementInt c + 2 ^ (c.countWidth - 1))
    (m := countModulus c)
  rw [countModulus_cast] at h ⊢
  rwa [signedWrapError, sub_sub, add_comm (2 ^ (c.countWidth - 1) : Int)]

/-- The signed-wrap error is in the signed `W`-bit range. -/
theorem abs_signedWrapError_le {c : Config} (hW : 1 ≤ c.countWidth) (last count : Nat) :
    2 * |signedWrapError c last count| ≤ countModulus c := by
  have hhalf : (2 : Int) * 2 ^ (c.countWidth - 1) = countModulus c := by
    rw [countModulus_cast, ← pow_succ', Nat.sub_add_cancel hW]
  have hpos := Int.natCast_pos.2 (countModulus_pos c)
  have hlo := Int.emod_nonneg (rawIncrement c last count - expectedIncrementInt c + 2 ^ (c.countWidth - 1)) hpos.ne'
  have hhi := Int.emod_lt_of_pos (rawIncrement c last count - expectedIncrementInt c + 2 ^ (c.countWidth - 1)) hpos
  have habs : |signedWrapError c last count| ≤ 2 ^ (c.countWidth - 1) := by
    rw [signedWrapError, ← countModulus_cast, abs_le]
    constructor <;> linarith
  linarith

/-- The error with `pf = 1` and the threshold together stay below `2^W`. -/
theorem abs_pfdErrorValue_one_add_lt {c : Config} (h : pfdError c = none) (hppm : c.ppmRange ≤ 1000000)
    (last count : Nat) : |pfdErrorValue c last count 1| + errorThreshold c < countModulus c := by
  obtain ⟨-, -, -, -, hfit⟩ := pfdError_eq_none.1 h
  have hT := errorThreshold_le h hppm
  have hfloor : (expectedIncrementInt c : Rat) ≤ expectedIncrement c := Int.floor_le _
  have hceil : expectedIncrement c < expectedIncrementInt c + 1 := Int.lt_floor_add_one _
  have hraw0 : (0 : Rat) ≤ rawIncrement c last count := Nat.cast_nonneg _
  have hraw : (rawIncrement c last count : Rat) + 1 ≤ countModulus c := by exact_mod_cast rawIncrement_lt c last count
  rw [← lt_sub_iff_add_lt, pfdErrorValue, div_one, abs_lt]
  constructor <;> linarith

/-- Where either error is in range the two are equal: they agree modulo `2^W`, and neither lies farther than
`2^W - THRESH` from 0. -/
theorem signedWrapError_eq_of_inRange {c : Config} {last count : Nat} (h : pfdError c = none)
    (hppm : c.ppmRange ≤ 1000000)
    (hin : |pfdErrorValue c last count 1| ≤ errorThreshold c ∨
      |(signedWrapError c last count : Rat)| ≤ errorThreshold c) :
    (signedWrapError c last count : Rat) = pfdErrorValue c last count 1 := by
  obtain ⟨-, -, -, hW, hfit⟩ := pfdError_eq_none.1 h
  have hT := errorThreshold_le h hppm
  have herror := abs_pfdErrorValue_one_add_lt h hppm last count
  have hwrap : 2 * |(signedWrapError c last count : Rat)| ≤ countModulus c := by
    exact_mod_cast abs_signedWrapError_le hW last count
  have hdist : |(signedWrapError c last count : Rat) - pfdErrorValue c last count 1| < countModulus c := by
    refine (abs_sub _ _).trans_lt ?_
    rcases hin with hin | hin <;> linarith
  rw [pfdErrorValue_one] at hdist ⊢
  have heq := Int.eq_zero_of_abs_lt_dvd (countModulus_dvd_signedWrapError_sub last count) (by exact_mod_cast hdist)
  exact_mod_cast sub_eq_zero.1 heq

theorem outOfRange_eq_false {c : Config} {error : Rat} : outOfRange c error = false ↔ |error| ≤ errorThreshold c := by
  simp [outOfRange]

/-- Settles O15: one error in range makes the two equal. -/
theorem signedWrapAgreesInRange : Obligations.SignedWrapAgreesInRange := by
  intro c last count h hppm
  have heq (hin : outOfRange c (pfdErrorValue c last count 1) = false ∨
      outOfRange c (signedWrapError c last count) = false) :
      (signedWrapError c last count : Rat) = pfdErrorValue c last count 1 :=
    signedWrapError_eq_of_inRange h hppm (hin.imp outOfRange_eq_false.1 outOfRange_eq_false.1)
  refine ⟨fun hin => heq (.inl hin), fun hne => ⟨?_, ?_⟩⟩
  · exact Bool.eq_true_of_not_eq_false fun hin => hne (heq (.inl hin))
  · exact Bool.eq_true_of_not_eq_false fun hin => hne (heq (.inr hin))

/-! ## A run of calls (41_pfd R67 (e)) -/

/-- A call at the nominal interval leaves a running block that holds its count, and presents its increment less `Ei`. -/
theorem execPfdGetError_nominal {s : State} {count : Nat} (hr : s.Running) (hc : count < countModulus s.cfg) :
    ∃ t, exec (.pfdGetError count none) s = .next t ∧ t.Running ∧ t.cfg = s.cfg ∧ t.pfd.lastCount = count ∧
      t.result.errorValue = rawIncrement s.cfg s.pfd.lastCount count - expectedIncrementInt s.cfg :=
  ⟨_, execPfdGetError_of_positive hr hc one_pos, hr, rfl, rfl, congrArg (· - _) (div_one _)⟩

/-- Every call of the run has a step, since each leaves a running block; each adds its increment less `Ei`. -/
theorem execAll_pfdGetError {s : State} {counts : List Nat} (hr : s.Running)
    (hc : ∀ n ∈ counts, n < countModulus s.cfg) :
    ∃ results t, execAll (counts.map fun n => .pfdGetError n none) s = some (results, t) ∧
      (results.map Result.errorValue).sum =
        (edgesCounted s.cfg s.pfd.lastCount counts : Rat) - counts.length * expectedIncrementInt s.cfg := by
  induction counts generalizing s with
  | nil => exact ⟨[], s, rfl, by simp⟩
  | cons n ns ih =>
    obtain ⟨hn, hns⟩ := List.forall_mem_cons.1 hc
    obtain ⟨t, hstep, hrt, hcfg, hlast, hvalue⟩ := execPfdGetError_nominal hr hn
    obtain ⟨results, u, hrun, hsum⟩ := ih hrt (hcfg ▸ hns)
    rw [hcfg, hlast] at hsum
    refine ⟨t.result :: results, u, by simp [execAll_cons hstep, hrun], ?_⟩
    rw [List.map_cons, List.sum_cons, hvalue, hsum, edgesCounted_cons, List.length_cons]
    push_cast
    ring

/-- The edges counted agree with the advance of the last count over the first, modulo `2^W`. -/
theorem countModulus_dvd_edgesCounted_sub (c : Config) (last : Nat) (counts : List Nat) :
    (countModulus c : Int) ∣ edgesCounted c last counts - ((counts.getLastD last : Int) - last) := by
  induction counts generalizing last with
  | nil => simp
  | cons n ns ih =>
    have hraw : (countModulus c : Int) ∣ rawIncrement c last n - ((n : Int) - last) := by
      rw [rawIncrement_cast]
      exact Int.dvd_emod_sub_self
    obtain ⟨a, ha⟩ := hraw
    obtain ⟨b, hb⟩ := ih n
    refine ⟨a + b, ?_⟩
    rw [edgesCounted_cons, List.getLastD_cons]
    push_cast
    linear_combination ha + hb

/-- Of a counter whose every advance is below `2^W`, no edge is lost. -/
theorem edgesCounted_presentedCounts {c : Config} {advances : List Nat} (h : ∀ n ∈ advances, n < countModulus c)
    (counter : Nat) :
    edgesCounted c (counter % countModulus c) (presentedCounts c counter advances) = advances.sum := by
  induction advances generalizing counter with
  | nil => rfl
  | cons n ns ih =>
    obtain ⟨hn, hns⟩ := List.forall_mem_cons.1 h
    rw [presentedCounts_cons, edgesCounted_cons, rawIncrement_advance, Nat.mod_eq_of_lt hn, ih hns, List.sum_cons]

/-- Settles O16: the sum over the run, its congruence, and the advance of a counter. -/
theorem detectorLosesNoEdge : Obligations.DetectorLosesNoEdge := by
  intro s counts hr _ hc
  refine ⟨execAll_pfdGetError hr hc, countModulus_dvd_edgesCounted_sub _ _ _, ?_⟩
  rintro counter advances hcounter rfl hadvances
  rw [← hcounter]
  exact edgesCounted_presentedCounts hadvances counter

end Sys2Proof.Machine
end

section
/-! PROOFS of the controller family (42_controller): the core's clamps and total (R70 to R73), its two wrappers (R74, R75),
and the filter (R77). -/

namespace Sys2Proof.Machine

/-! ## The core (42_controller R70 to R73, R76 (b), (c)) -/

/-- The limit of a gain, written out: a zero gain clamps nothing (R70). -/
theorem clampWithin_windupLimit (c : Config) (gain v : Rat) :
    clampWithin v (windupLimit c gain) =
      if gain = 0 then v else clamp v (-(windupSpan c / gain)) (windupSpan c / gain) := by
  by_cases hz : gain = 0 <;> simp [windupLimit, hz, clampWithin]

/-- In a running block `CTRL_CORE` has a step, from any accumulators. -/
theorem execCtrlCore_of_running {s : State} (hr : s.Running) (error : Rat) (fl : Bool) :
    exec (.ctrlCore error fl) s =
      .next ((ctrlCore error fl s).present (.totalError (coreTotal s.cfg s.ctrl error fl))) :=
  execCtrlCore_eq_next.2 ⟨hr, rfl⟩

/-- Settles O17: each bound of the statement is the model's clamp on that gain's limit. -/
theorem ctrlCoreUpdatesAccumulators : Obligations.CtrlCoreUpdatesAccumulators := by
  intro s error fl hr
  simp only [← clampWithin_windupLimit]
  exact ⟨rfl, execCtrlCore_of_running hr error fl⟩

/-- A `first_loop` call leaves a running block with both accumulators and `total_error` at 0 (R73, R76 (b)). -/
theorem execCtrlCore_firstLoop {s : State} (hr : s.Running) (hc : ConfigValid s.cfg) (error : Rat) :
    ∃ t, exec (.ctrlCore error true) s = .next t ∧ t.Running ∧ t.cfg = s.cfg ∧
      t.ctrl.errorAccum = 0 ∧ t.ctrl.errorAccumAccum = 0 ∧ t.ctrl.totalError = 0 := by
  refine ⟨_, execCtrlCore_of_running hr error true, ?_⟩
  rw [ctrlCore_firstLoop hc]
  exact ⟨hr, rfl, rfl, rfl, rfl⟩

theorem coreAccum_of_zero {r : CtrlRegs} (h : r.errorAccum = 0) (c : Config) (e : Rat) :
    coreAccum c r e false = clampWithin e (windupLimit c c.ki) := by
  simp [coreAccum, usedError, h]

/-- From zeroed accumulators the double integral is the single integral clamped again (R76 (c)). -/
theorem coreAccumAccum_of_zero {r : CtrlRegs} (h : r.errorAccum = 0) (h' : r.errorAccumAccum = 0) (c : Config)
    (e : Rat) :
    coreAccumAccum c r e false = clampWithin (clampWithin e (windupLimit c c.ki)) (windupLimit c c.kii) := by
  simp [coreAccumAccum, coreAccum_of_zero h, h']

/-- Settles O19: the first call writes zeros, from which the second adds its own error only. -/
theorem resynchronisationClearsAccumulators : Obligations.ResynchronisationClearsAccumulators := by
  intro s error e hr hc
  obtain ⟨t, hstep, hrt, hcfg, ha, haa, htotal⟩ := execCtrlCore_firstLoop hr hc error
  rw [← hcfg]
  exact ⟨t, _, hstep, execCtrlCore_of_running hrt e false, ha, haa, htotal, coreAccum_of_zero ha t.cfg e,
    coreAccumAccum_of_zero ha haa t.cfg e⟩

/-! ## The wrappers (42_controller R74, R75) -/

/-- Settles O20: the two cases of `first_loop`, which differ in the result and in the model's draw counter. -/
theorem ctrlLutSubtractsFromBaseIndex : Obligations.CtrlLutSubtractsFromBaseIndex := by
  intro s error fl hr hv
  refine ⟨rfl, _, execCtrlCore_of_running hr error fl, ?_, ?_⟩
  · rintro rfl
    exact execCtrlLut_eq_next.2 ⟨hr, hv, rfl⟩
  · rintro rfl
    exact ⟨_, execCtrlLut_eq_next.2 ⟨hr, hv, rfl⟩⟩

/-- The arithmetic shift of the filter is the floor of the exact eighth (R8, R77). -/
theorem filterStep_eq_add_floor (y x : Int) : filterStep y x = y + ⌊((x - y : Int) : Rat) / 8⌋ := by
  rw [filterStep_eq]
  exact congrArg (y + ·) (Rat.floor_intCast_div_natCast (x - y) 8).symm

/-- In a running SDM block `CTRL_SDM` writes what the core writes on the negated error, then the filter (R75). -/
theorem execCtrlSdm_of_running {s : State} (hr : s.Running) (hv : s.cfg.variant = .sdm) (error : Rat) (fl : Bool) :
    let t := ctrlCore (-error) fl s
    let y := filterStep s.ctrl.iirY (roundCtrl s.cfg.roundCtrl t.ctrl.totalError)
    exec (.ctrlSdm error fl) s =
      .next { t with ctrl := { t.ctrl with iirY := y }, result := .sdmIn (sdmNominal s.cfg + y) } :=
  execCtrlSdm_eq_next.2 ⟨hr, hv, rfl⟩

/-- Settles O21: the filter takes the core's `total_error`, rounded in either mode, and starts from the old `iir_y`. -/
theorem ctrlSdmFiltersNegatedError : Obligations.CtrlSdmFiltersNegatedError := by
  intro s error fl hr hv
  refine ⟨rfl, _, execCtrlCore_of_running hr (-error) fl, rfl, ?_⟩
  simp only [execCtrlSdm_of_running hr hv, filterStep_eq_add_floor]
  cases s.cfg.roundCtrl <;> rfl

/-! ## The filter (42_controller R77) -/

/-- One step moves the filter by the whole eighths of its distance from the input. -/
theorem filterStep_sub_bounds (y x : Int) :
    8 * (filterStep y x - y) ≤ x - y ∧ x - y < 8 * (filterStep y x - y) + 8 := by
  rw [filterStep_eq]
  omega

/-- Settles O22: a move by whole eighths of the distance has its direction, is no longer than it, and is none exactly at a
distance of 0 to 7. -/
theorem filterNeverOvershoots : Obligations.FilterNeverOvershoots := by
  intro y x
  obtain ⟨hlow, hhigh⟩ := filterStep_sub_bounds y x
  refine ⟨fun hle => ?_, fun hle => ?_, ⟨fun hfix => ?_, fun ⟨h7, hle⟩ => ?_⟩⟩ <;> omega

end Sys2Proof.Machine
end

section
/-! PROOFS of the lookup-table DCO family (43_lut_dco): what `LUT_GET_FREQ` writes (R81 to R84), the range of its frequency
(R85 (a)), and the lock detector over runs of samples, which both oscillators drive (R80, R85 (b), 44_sdm_dco R96 (d)). -/

namespace Sys2Proof.Machine

/-! ## The writes of `LUT_GET_FREQ` (43_lut_dco R81 to R83) -/

/-- The index is the floor of the control value clamped to the table (R82). -/
theorem lutIndex_eq (c : Config) (ctrl : Rat) : lutIndex c ctrl = ⌊clamp ctrl 0 ((c.lut.length : Rat) - 1)⌋ := by
  rw [lutIndex, lutClamped_eq, tableSize]

theorem lutSample_of_inRange {c : Config} {x : Rat} (h0 : 0 ≤ x) (h : x ≤ (c.lut.length : Rat) - 1) :
    lutSample c x = .inRange := (if_neg (not_lt.2 h0)).trans (if_neg (not_lt.2 h))

theorem lutSample_of_neg {c : Config} {x : Rat} (h : x < 0) : lutSample c x = .low := if_pos h

theorem lutSample_of_above {c : Config} {x : Rat} (h0 : ¬ x < 0) (h : (c.lut.length : Rat) - 1 < x) :
    lutSample c x = .high := (if_neg h0).trans (if_pos h)

/-- The lock registers after a control value, with its class written out (R80, R81). -/
theorem lockUpdate_lutSample (c : Config) (r : DcoRegs) (ctrl : Rat) :
    lockUpdate c r (lutSample c ctrl) =
      { lockStatus :=
          if ctrl < 0 then .unlockedLow else if (c.lut.length : Rat) - 1 < ctrl then .unlockedHigh
          else if r.lockCount - 1 = 0 then .locked else r.lockStatus
        lockCount := if ctrl < 0 ∨ (c.lut.length : Rat) - 1 < ctrl then c.lockCountThreshold else r.lockCount - 1
        lastFreq := r.lastFreq } := by
  by_cases hlow : ctrl < 0
  · simp [lutSample_of_neg hlow, lockUpdate, hlow]
  · by_cases hhigh : (c.lut.length : Rat) - 1 < ctrl
    · simp [lutSample_of_above hlow hhigh, lockUpdate, hlow, hhigh]
    · simp [lutSample_of_inRange (not_lt.1 hlow) (not_lt.1 hhigh), lockUpdate, hlow, hhigh]

/-- The null operand returns what is cached and writes no register (R83). -/
theorem execLutGetFreq_null {s : State} (hr : s.Running) (hv : s.cfg.variant = .lut) (ctrl : Rat) :
    exec (.lutGetFreq false ctrl) s = .next (presentFreqLock s) :=
  execLutGetFreq_eq_next.2 ⟨hr, hv, .inl ⟨s, rfl, rfl⟩⟩

/-- Where the table has an entry for the control value, a call writes the entry's fraction with the enable forced, the
frequency, the lock registers and the cache (R81, R84). -/
theorem execLutGetFreq_of_entry {s : State} {ctrl : Rat} {w : TableWord} (hr : s.Running) (hv : s.cfg.variant = .lut)
    (hp : s.PllLegal) (hw : lutRead s.cfg (lutIndex s.cfg ctrl) = some w) :
    let v := outputHz (inputHz s.cfg) { s.pll.setting with f := wordF w, p := wordP w, en := true }
    let lock := lockUpdate s.cfg s.dco (lutSample s.cfg ctrl)
    exec (.lutGetFreq true ctrl) s =
      .next { s with
        pll := { s.pll with f := wordF w, p := wordP w, fracEn := true, outFreq := v }
        dco := { lock with lastFreq := v }
        result := .freqLock v lock.lockStatus.code } :=
  execLutGetFreq_eq_next.2 ⟨hr, hv, .inl ⟨_, lutGetFreq_eq_ok.2 (.inr ⟨rfl, w, hw, hp.1, rfl⟩), rfl⟩⟩

/-- Settles O24: the clamped index lies in the table, and the entry there is what the call writes. -/
theorem lutGetFreqSelectsEntry : Obligations.LutGetFreqSelectsEntry := by
  intro s ctrl hr hv hp hn top idx
  have hidx : lutIndex s.cfg ctrl = idx := lutIndex_eq s.cfg ctrl
  obtain ⟨w, hread, hget, -⟩ := lutRead_lutIndex hn ctrl
  refine ⟨fun _ => rfl, execLutGetFreq_null hr hv ctrl, w, hidx ▸ (lutIndex_mem hn ctrl).1, hidx ▸ hget, ?_⟩
  rw [execLutGetFreq_of_entry hr hv hp hread, lockUpdate_lutSample]
  rfl

/-! ## The fractional word of a table entry (43_lut_dco R84) -/

/-- A table entry with the enable bit set is the packing of its fields with the enable set (R44, R45). -/
theorem pack32_entry (k : Nat) (w : TableWord) :
    pack32 k (wordF w) (wordP w) true = 1#32 <<< k ||| w.setWidth 32 := by
  have hlow : (wordF w).setWidth 32 <<< 8 ||| (wordP w).setWidth 32 = w.setWidth 32 := by
    conv_rhs => rw [← pack16_wordF_wordP w]
    ext j hj
    obtain hlt | hge := lt_or_ge j 16
    · simp [pack16, hlt]
    · have hf : (wordF w).getLsbD (j - 8) = false := BitVec.getLsbD_of_ge _ _ (by omega)
      simp [pack16, not_lt.2 hge, hf]
  rw [pack32, BitVec.or_assoc, hlow]
  rfl

/-- Settles O25: both operations write the entry's fields with the enable set, which the forced word packs. -/
theorem lutForcesFractionalEnable : Obligations.LutForcesFractionalEnable := by
  intro s ctrl hr hv hp hn hk hk'
  obtain ⟨w, hread, hget, -⟩ := lutRead_lutIndex hn ctrl
  rw [lutIndex_eq] at hget
  have hreg := (execPllUpdateFracReg_eq (pack32 s.cfg.fracEnBit (wordF w) (wordP w) true) s).trans
    (pllUpdateFracReplacesFraction s _ _ _ hr hp).2.2
  rw [fracWordF_pack32 hk, fracWordP_pack32 hk, fracWordEn_pack32 hk hk', pack32_entry] at hreg
  refine ⟨w, _, _, hget, execLutGetFreq_of_entry hr hv hp hread, hreg, rfl, pack32_entry _ w, fun h31 => ?_,
    rfl, rfl, rfl, rfl⟩
  refine (pack32_entry _ w).trans ?_
  rw [h31]
  rfl

/-! ## The range of the frequency (43_lut_dco R85 (a)) -/

/-- The table is ordered in the same way whatever the integer fields: only the fraction differs (40_pll_register_model R55,
60_exceptions R112 check 7). -/
theorem entryHz_le_iff {c : Config} (h : 0 < inputHz c) (q : PllSetting) (a b : TableWord) :
    entryHz c a ≤ entryHz c b ↔
      outputHz (inputHz c) { q with f := wordF a, p := wordP a, en := true } ≤
        outputHz (inputHz c) { q with f := wordF b, p := wordP b, en := true } :=
  (outputHz_le_iff h (pll0 c) ..).trans (outputHz_le_iff h q ..).symm

/-- Settles O26: the frequency is that of an entry, and the table is monotonic. -/
theorem lutFrequencyStaysInTableRange : Obligations.LutFrequencyStaysInTableRange := by
  intro s ctrl hi hr hv hz
  have hs := hi.steady hr
  obtain ⟨w, hread, -, hmem⟩ := lutRead_lutIndex (hs.valid.tableSize_pos hv) ctrl
  have hne : s.cfg.lut ≠ [] := List.ne_nil_of_mem hmem
  have hbounds := tableMonotonic_bounds (hs.valid.table_monotonic hv) hmem hne
  rw [entryHz_le_iff hs.valid.inputHz_pos s.pll.setting, entryHz_le_iff hs.valid.inputHz_pos s.pll.setting] at hbounds
  exact ⟨_, _, _, execLutGetFreq_of_entry hr hv hs.pll hread, List.head?_eq_some_head hne,
    List.getLast?_eq_some_getLast hne, hbounds⟩

/-! ## The lock detector over a run of samples (43_lut_dco R80) -/

/-- `t` keeps the configuration of `s`, and its lock detector has taken the sample `x` (R80). -/
structure State.TakesSample (s : State) (x : Sample) (t : State) : Prop where
  cfg : t.cfg = s.cfg
  lockStatus : t.dco.lockStatus = (lockUpdate s.cfg s.dco x).lockStatus
  lockCount : t.dco.lockCount = (lockUpdate s.cfg s.dco x).lockCount

/-- The lock detector `n` in-range samples after an out-of-range one that left the status `l`: the counter is down by `n`, and
the status is `l` until the threshold is reached. -/
structure State.LockCounts (s : State) (l : LockStatus) (n : Nat) : Prop where
  count : s.dco.lockCount = s.cfg.lockCountThreshold - n
  status : s.dco.lockStatus = if 0 < n ∧ s.cfg.lockCountThreshold ≤ n then .locked else l

theorem State.TakesSample.lockCounts_low {s t : State} (h : s.TakesSample .low t) : t.LockCounts .unlockedLow 0 :=
  ⟨by simp [h.lockCount, h.cfg, lockUpdate], by simp [h.lockStatus, lockUpdate]⟩

theorem State.TakesSample.lockCounts_high {s t : State} (h : s.TakesSample .high t) : t.LockCounts .unlockedHigh 0 :=
  ⟨by simp [h.lockCount, h.cfg, lockUpdate], by simp [h.lockStatus, lockUpdate]⟩

/-- An in-range sample counts one down; it locks where that spends the counter, and else leaves the status, which was not yet
locked by the count. -/
theorem State.LockCounts.succ {s t : State} {l : LockStatus} {n : Nat} (h : s.LockCounts l n)
    (ht : s.TakesSample .inRange t) : t.LockCounts l (n + 1) := by
  obtain ⟨hcount, hstatus⟩ := h
  constructor
  · rw [ht.lockCount, ht.cfg, lockUpdate, hcount, Nat.sub_sub]
  · rw [ht.lockStatus, ht.cfg, lockUpdate, hcount, hstatus, Nat.sub_sub]
    by_cases hT : s.cfg.lockCountThreshold ≤ n + 1
    · simp [hT, Nat.sub_eq_zero_of_le hT]
    · have hT' : ¬ s.cfg.lockCountThreshold ≤ n := fun h => hT (Nat.le_succ_of_le h)
      simp [hT, hT', Nat.sub_eq_zero_iff_le]

/-- Operations each of which takes an in-range sample, from every state with a property that it keeps, all have a step and
count down by their number. -/
theorem execAll_inRange {P : State → Prop} {ops : List Instr}
    (hop : ∀ i ∈ ops, ∀ s, P s → ∃ t, exec i s = .next t ∧ P t ∧ s.TakesSample .inRange t)
    {s : State} {l : LockStatus} {n : Nat} (hs : P s) (hl : s.LockCounts l n) :
    ∃ results t, execAll ops s = some (results, t) ∧ P t ∧ t.LockCounts l (n + ops.length) := by
  induction ops generalizing s n with
  | nil => exact ⟨[], s, rfl, hs, hl⟩
  | cons i is ih =>
    obtain ⟨hi, his⟩ := List.forall_mem_cons.1 hop
    obtain ⟨t, hstep, ht, hsample⟩ := hi s hs
    obtain ⟨results, u, hrun, hu, hlu⟩ := ih his ht (hl.succ hsample)
    refine ⟨t.result :: results, u, by simp [execAll_cons hstep, hrun], hu, ?_⟩
    rwa [List.length_cons, Nat.add_comm is.length, ← Nat.add_assoc]

/-! ## The lookup-table oscillator's samples (43_lut_dco R81, R85 (b)) -/

/-- A non-null call on a steady LUT block leaves a steady block and gives the detector the class of the control value. -/
theorem State.Steady.exec_lutGetFreq {s : State} (h : s.Steady) (hv : s.cfg.variant = .lut) (ctrl : Rat) :
    ∃ t, exec (.lutGetFreq true ctrl) s = .next t ∧ t.Steady ∧ s.TakesSample (lutSample s.cfg ctrl) t := by
  obtain ⟨u, hu⟩ := lutGetFreq_of_legal true ctrl (h.valid.tableSize_pos hv) h.pll.1
  refine ⟨presentFreqLock u, execLutGetFreq_eq_next.2 ⟨h.running, hv, .inl ⟨u, hu, rfl⟩⟩, (h.lutGetFreq hu).present _, ?_⟩
  obtain ⟨hnull, -⟩ | ⟨-, w, -, -, rfl⟩ := lutGetFreq_eq_ok.1 hu
  · exact nomatch hnull
  · exact ⟨rfl, rfl, rfl⟩

theorem execAll_lutGetFreq {s : State} {l : LockStatus} {n : Nat} {samples : List Rat} (h : s.Steady)
    (hv : s.cfg.variant = .lut) (hin : ∀ x ∈ samples, 0 ≤ x ∧ x ≤ (s.cfg.lut.length : Rat) - 1)
    (hl : s.LockCounts l n) :
    ∃ results t, execAll (samples.map fun x => .lutGetFreq true x) s = some (results, t) ∧ t.cfg = s.cfg ∧
      t.LockCounts l (n + samples.length) := by
  have hop : ∀ i ∈ samples.map fun x => Instr.lutGetFreq true x, ∀ u : State, u.Steady ∧ u.cfg = s.cfg →
      ∃ t, exec i u = .next t ∧ (t.Steady ∧ t.cfg = s.cfg) ∧ u.TakesSample .inRange t := by
    rintro _ hi u ⟨hu, hcfg⟩
    obtain ⟨x, hx, rfl⟩ := List.mem_map.1 hi
    obtain ⟨t, hstep, ht, hsample⟩ := hu.exec_lutGetFreq (hcfg ▸ hv) x
    rw [hcfg, lutSample_of_inRange (hin x hx).1 (hin x hx).2] at hsample
    exact ⟨t, hstep, ⟨ht, hsample.cfg.trans hcfg⟩, hsample⟩
  obtain ⟨results, t, hrun, ⟨-, hcfg⟩, hlt⟩ := execAll_inRange hop ⟨h, rfl⟩ hl
  exact ⟨results, t, hrun, hcfg, by simpa using hlt⟩

/-- Settles O27: the first sample resets the counter to the threshold, and each of the others counts one down. -/
theorem lutLockNeedsSustainedRange : Obligations.LutLockNeedsSustainedRange := by
  intro s out samples hi hr hv hout hin
  obtain ⟨t, hstep, ht, hsample⟩ := (hi.steady hr).exec_lutGetFreq hv out
  have hfirst : t.LockCounts (if out < 0 then .unlockedLow else .unlockedHigh) 0 := by
    by_cases hlow : out < 0
    · rw [lutSample_of_neg hlow] at hsample
      simpa [hlow] using hsample.lockCounts_low
    · rw [lutSample_of_above hlow (hout.resolve_left hlow)] at hsample
      simpa [hlow] using hsample.lockCounts_high
  have hcfg := hsample.cfg
  obtain ⟨results, u, hrun, hcfg', hlu⟩ := execAll_lutGetFreq ht (hcfg ▸ hv) (hcfg ▸ hin) hfirst
  refine ⟨t.result :: results, u, by simp [execAll_cons hstep, hrun], ?_⟩
  simp only [hlu.status, hcfg', hcfg, Nat.zero_add, List.length_pos_iff]

/-! ## The sigma-delta oscillator's samples (44_sdm_dco R91, R96 (d)) -/

theorem sdmSample_of_inRange {c : Config} {v : Int} (hmin : sdmInMin c ≤ v) (hmax : v ≤ sdmInMax c) :
    sdmSample c v = .inRange := (if_neg (not_lt.2 hmax)).trans (if_neg (not_lt.2 hmin))

/-- The range of set-points of a valid SDM configuration holds the nominal midpoint, so it is not empty (R95). -/
theorem ConfigValid.sdmInMin_le_sdmInMax {c : Config} (h : ConfigValid c) (hv : c.variant = .sdm) :
    sdmInMin c ≤ sdmInMax c := by
  obtain ⟨-, -, -, -, hprofile, -⟩ := configValid_iff.1 h
  unfold profileError at hprofile
  split_ifs at hprofile with hmid
  exact (hmid hv).1.trans (hmid hv).2

/-- A tick on a steady SDM block leaves a steady block with the same set-point, and gives the detector its class. -/
theorem State.Steady.exec_sdmTick {s : State} (h : s.Steady) (hv : s.cfg.variant = .sdm) :
    ∃ t, exec .sdmTick s = .next t ∧ t.Steady ∧ t.sdm.setpoint = s.sdm.setpoint ∧
      s.TakesSample (sdmSample s.cfg s.sdm.setpoint) t := by
  obtain ⟨u, hu⟩ := sdmTick_of_legal h.pll.1
  refine ⟨presentTick u, execSdmTick_eq_next.2 ⟨h.running, hv, .inl ⟨u, hu, rfl⟩⟩, (h.sdmTick hu).present _, ?_⟩
  obtain ⟨-, rfl⟩ := sdmTick_eq_ok.1 hu
  exact ⟨rfl, rfl, rfl, rfl⟩

/-- Writing a set-point leaves a steady block that holds it, and is no sample (R90). -/
theorem State.Steady.exec_sdmSetPoint {s : State} (h : s.Steady) (hv : s.cfg.variant = .sdm) (v : Int) :
    ∃ t, exec (.sdmSetPoint v) s = .next t ∧ t.Steady ∧ t.cfg = s.cfg ∧ t.sdm.setpoint = v ∧ t.dco = s.dco :=
  ⟨_, execSdmSetPoint_eq_next.2 ⟨h.running, hv, rfl⟩, (h.setSdm _).present _, rfl, rfl, rfl⟩

theorem execAll_sdmTicks {s : State} {l : LockStatus} {n : Nat} (h : s.Steady) (hv : s.cfg.variant = .sdm)
    (hin : sdmSample s.cfg s.sdm.setpoint = .inRange) (hl : s.LockCounts l n) (k : Nat) :
    ∃ results t, execAll (List.replicate k .sdmTick) s = some (results, t) ∧ t.Steady ∧ t.cfg = s.cfg ∧
      t.LockCounts l (n + k) := by
  have hop : ∀ i ∈ List.replicate k Instr.sdmTick, ∀ u : State,
      u.Steady ∧ u.cfg = s.cfg ∧ u.sdm.setpoint = s.sdm.setpoint →
      ∃ t, exec i u = .next t ∧ (t.Steady ∧ t.cfg = s.cfg ∧ t.sdm.setpoint = s.sdm.setpoint) ∧
        u.TakesSample .inRange t := by
    rintro i hi u ⟨hu, hcfg, hset⟩
    obtain rfl := List.eq_of_mem_replicate hi
    obtain ⟨t, hstep, ht, hset', hsample⟩ := hu.exec_sdmTick (hcfg ▸ hv)
    rw [hcfg, hset, hin] at hsample
    exact ⟨t, hstep, ⟨ht, hsample.cfg.trans hcfg, hset'.trans hset⟩, hsample⟩
  obtain ⟨results, t, hrun, ⟨ht, hcfg, -⟩, hlt⟩ := execAll_inRange hop ⟨h, rfl, rfl⟩ hl
  exact ⟨results, t, hrun, ht, hcfg, by simpa using hlt⟩

/-- Runs of ticks on in-range set-points count down by the number of the ticks. -/
theorem execAll_sdmRuns {s : State} {l : LockStatus} {n : Nat} {runs : List (Int × Nat)} (h : s.Steady)
    (hv : s.cfg.variant = .sdm) (hin : ∀ r ∈ runs, sdmInMin s.cfg ≤ r.1 ∧ r.1 ≤ sdmInMax s.cfg)
    (hl : s.LockCounts l n) :
    ∃ results t, execAll (runs.flatMap fun r => .sdmSetPoint r.1 :: List.replicate r.2 .sdmTick) s = some (results, t) ∧
      t.cfg = s.cfg ∧ t.LockCounts l (n + (runs.map Prod.snd).sum) := by
  induction runs generalizing s n with
  | nil => exact ⟨[], s, rfl, rfl, hl⟩
  | cons r rs ih =>
    obtain ⟨⟨hmin, hmax⟩, hrs⟩ := List.forall_mem_cons.1 hin
    obtain ⟨t, hset, ht, htcfg, hpoint, hdco⟩ := h.exec_sdmSetPoint hv r.1
    have hlt : t.LockCounts l n := ⟨by rw [hdco, htcfg, hl.count], by rw [hdco, htcfg, hl.status]⟩
    have hsample : sdmSample t.cfg t.sdm.setpoint = .inRange := by rw [htcfg, hpoint, sdmSample_of_inRange hmin hmax]
    obtain ⟨ticked, u, hticks, hu, hucfg, hlu⟩ := execAll_sdmTicks ht (htcfg ▸ hv) hsample hlt r.2
    have hcfg : u.cfg = s.cfg := hucfg.trans htcfg
    obtain ⟨rest, w, hrest, hwcfg, hlw⟩ := ih hu (hcfg ▸ hv) (hcfg ▸ hrs) hlu
    refine ⟨t.result :: (ticked ++ rest), w, ?_, hwcfg.trans hcfg, ?_⟩
    · simp [execAll_cons hset, execAll_append hticks hrest]
    · rwa [List.map_cons, List.sum_cons, ← Nat.add_assoc]

/-- Settles O53: the tick on the first set-point resets the counter to the threshold, and each of the others counts one
down. -/
theorem sdmLockNeedsSustainedRange : Obligations.SdmLockNeedsSustainedRange := by
  intro s out runs hi hr hv hout hin ticks
  obtain ⟨t, hset, ht, htcfg, hpoint, -⟩ := (hi.steady hr).exec_sdmSetPoint hv out
  obtain ⟨u, htick, hu, -, hsample⟩ := ht.exec_sdmTick (htcfg ▸ hv)
  have hcfg : u.cfg = s.cfg := hsample.cfg.trans htcfg
  rw [htcfg, hpoint] at hsample
  have hrange := (hi.steady hr).valid.sdmInMin_le_sdmInMax hv
  have hfirst : u.LockCounts (if out < sdmInMin s.cfg then .unlockedLow else .unlockedHigh) 0 := by
    by_cases hlow : out < sdmInMin s.cfg
    · rw [sdmSample_of_below (by omega) hlow] at hsample
      simpa [hlow] using hsample.lockCounts_low
    · rw [sdmSample_of_above (hout.resolve_left hlow)] at hsample
      simpa [hlow] using hsample.lockCounts_high
  obtain ⟨results, w, hrun, hwcfg, hlw⟩ := execAll_sdmRuns hu (hcfg ▸ hv) (hcfg ▸ hin) hfirst
  refine ⟨t.result :: u.result :: results, w, by simp [execAll_cons hset, execAll_cons htick, hrun], ?_⟩
  rw [hlw.status, hwcfg, hcfg, Nat.zero_add]

end Sys2Proof.Machine
end

section
/-! PROOFS of the sigma-delta DCO family (44_sdm_dco): the set-point (R90), the writes of `SDM_TICK` (R91 to R93) and the
range of a tick's step and frequency (R96 (a) to (c)). -/

namespace Sys2Proof.Machine

/-! ## The set-point (44_sdm_dco R90) -/

/-- Settles O28: the operation has no check, and its one write is the set-point. -/
theorem sdmSetPointStoresValue : Obligations.SdmSetPointStoresValue :=
  fun _ _ hr hv => ⟨rfl, execSdmSetPoint_eq_next.2 ⟨hr, hv, rfl⟩⟩

/-! ## The field mapper and the lock detector of a tick (44_sdm_dco R91, R92) -/

/-- Step 0 needs no case of its own in the `f` field: the difference truncates at 0 (R92). -/
theorem stepF_eq_ite (k : Fin 9) : stepF k = if k = 0 then 0 else BitVec.ofNat 8 (k.val - 1) := by
  split_ifs with h
  · rw [h]
    rfl
  · rfl

theorem stepEn_eq_decide_ne : ∀ k : Fin 9, stepEn k = decide (k ≠ 0) := by decide

/-- The lock registers after a set-point, with its class written out (43_lut_dco R80, 44_sdm_dco R91). -/
theorem lockUpdate_sdmSample (c : Config) (r : DcoRegs) (v : Int) :
    lockUpdate c r (sdmSample c v) =
      { lockStatus :=
          if sdmInMax c < v then .unlockedHigh else if v < sdmInMin c then .unlockedLow
          else if r.lockCount - 1 = 0 then .locked else r.lockStatus
        lockCount := if sdmInMax c < v ∨ v < sdmInMin c then c.lockCountThreshold else r.lockCount - 1
        lastFreq := r.lastFreq } := by
  by_cases hhigh : sdmInMax c < v
  · simp [sdmSample_of_above hhigh, lockUpdate, hhigh]
  · by_cases hlow : v < sdmInMin c
    · simp [sdmSample_of_below hhigh hlow, lockUpdate, hhigh, hlow]
    · simp [sdmSample_of_inRange (not_lt.1 hlow) (not_lt.1 hhigh), lockUpdate, hhigh, hlow]

/-! ## The writes of `SDM_TICK` (44_sdm_dco R93) -/

/-- A tick with legal integer fields writes the fraction of its step, the frequency, the lock registers, the cache and the
modulator's registers; the set-point stays (R93). -/
theorem execSdmTick_of_legal {s : State} (hr : s.Running) (hv : s.cfg.variant = .sdm) (hp : s.PllLegal) :
    let out := tickUpdate s
    let v := outputHz (inputHz s.cfg) { s.pll.setting with
      f := stepF out.step, p := Config.sdmP, en := stepEn out.step }
    let lock := lockUpdate s.cfg s.dco (sdmSample s.cfg s.sdm.setpoint)
    exec .sdmTick s =
      .next { s with
        pll := { s.pll with f := stepF out.step, p := Config.sdmP, fracEn := stepEn out.step, outFreq := v }
        dco := { lock with lastFreq := v }
        sdm := { s.sdm with x1 := out.x1, x2 := out.x2, x3 := out.x3, lastStep := out.step }
        result := .tick (stepCode out.step) v lock.lockStatus.code } :=
  execSdmTick_eq_next.2 ⟨hr, hv, .inl ⟨_, sdmTick_eq_ok.2 ⟨hp.1, rfl⟩, rfl⟩⟩

/-- Settles O29: the tick cannot raise, since the live integer fields are legal; the clamp, the field mapper and the lock
detector are then written out. -/
theorem sdmTickRunsModulator : Obligations.SdmTickRunsModulator := by
  intro s hr hv hp
  refine ⟨rfl, ?_⟩
  rw [execSdmTick_of_legal hr hv hp, tickUpdate, sdmClamped_eq, stepF_eq_ite, stepEn_eq_decide_ne, lockUpdate_sdmSample]
  rfl

/-! ## The range of a tick's step and frequency (44_sdm_dco R96 (a) to (c)) -/

/-- The frequency at a step: the fraction of the multiplier is an eighth of the step (R92, 40_pll_register_model R50). -/
theorem outputHz_step (hz : Hz) (q : PllSetting) (k : Fin 9) :
    outputHz hz { q with f := stepF k, p := Config.sdmP, en := stepEn k } =
      unitHz hz q * (q.F + 1 + k.val / 8) := by
  rw [outputHz_eq_unit, fracPart_step]
  rfl

/-- A step is at most 8, so its frequency lies between those of two integer multipliers (R96 (b)). -/
theorem unitHz_mul_step_bounds {hz : Hz} (h : 0 < hz) (q : PllSetting) (F : Rat) (k : Fin 9) :
    unitHz hz q * (F + 1) ≤ unitHz hz q * (F + 1 + k.val / 8) ∧
      unitHz hz q * (F + 1 + k.val / 8) ≤ unitHz hz q * (F + 2) := by
  have hK : 0 ≤ unitHz hz q := (unitHz_pos h q).le
  have hk : (k.val : Rat) ≤ 8 := by exact_mod_cast k.is_le
  have hk0 : (0 : Rat) ≤ k.val := k.val.cast_nonneg
  exact ⟨mul_le_mul_of_nonneg_left (by linarith) hK, mul_le_mul_of_nonneg_left (by linarith) hK⟩

/-- Settles O30: under the invariant the tick cannot raise, and the step's type bounds it whatever `SDM_UPDATE` is. -/
theorem sdmTickStaysInStepRange : Obligations.SdmTickStaysInStepRange := by
  intro s t hi hr h K
  have hs := hi.steady hr
  obtain ⟨-, hv, -⟩ := execSdmTick_eq_next.1 h
  rw [execSdmTick_of_legal hr hv hs.pll] at h
  obtain rfl := Host.Outcome.next.inj h
  have hfreq := outputHz_step (inputHz s.cfg) s.pll.setting (tickUpdate s).step
  obtain ⟨hlow, hhigh⟩ :=
    unitHz_mul_step_bounds hs.valid.inputHz_pos s.pll.setting s.pll.F.toNat (tickUpdate s).step
  exact ⟨(tickUpdate s).step.is_le, hfreq, hlow.trans_eq hfreq.symm, hfreq.trans_le hhigh, rfl, stepF_le _,
    stepEn_eq_false_iff _⟩

end Sys2Proof.Machine
end

section
/-! PROOFS of the orchestrator family (45_orchestrator_system): a control period as its three operations (R101, R102), the
period that resynchronises (R107 (a) to (c)), `RESET` (R100) and `OBSERVE` (R103). -/

namespace Sys2Proof.Machine

/-! ## The result ports are written only (30_encoding R41, 45_orchestrator_system R101) -/

theorem ctrlLut_present (error : Rat) (fl : Bool) (s : State) (r : Result) :
    ctrlLut error fl (s.present r) = (ctrlLut error fl s).present r := by
  rw [ctrlLut_eq, ctrlLut_eq]
  rfl

theorem lutGetFreq_present {s t : State} {v : Bool} {ctrl : Rat} (h : lutGetFreq v ctrl s = .ok t) (r : Result) :
    lutGetFreq v ctrl (s.present r) = .ok (t.present r) := by
  obtain ⟨hnull, rfl⟩ | ⟨hvalid, w, hread, hlegal, rfl⟩ := lutGetFreq_eq_ok.1 h
  · exact lutGetFreq_eq_ok.2 (.inl ⟨hnull, rfl⟩)
  · exact lutGetFreq_eq_ok.2 (.inr ⟨hvalid, w, hread, hlegal, rfl⟩)

/-- What the detector and the controller have left on the ports does not reach `LUT_GET_FREQ`, which drives them anew. -/
theorem execLutGetFreq_present {s t : State} {v : Bool} {ctrl : Rat} (hr : s.Running) (hv : s.cfg.variant = .lut)
    (h : lutGetFreq v ctrl s = .ok t) (r : Result) :
    exec (.lutGetFreq v ctrl) (s.present r) = .next (presentFreqLock t) :=
  execLutGetFreq_eq_next.2 ⟨hr, hv, .inl ⟨t.present r, lutGetFreq_present h r, rfl⟩⟩

/-! ## A control period of the LUT variant (45_orchestrator_system R101) -/

/-- The state in which `STEP_LUT` hands over to the oscillator: the detector and the controller have written. -/
def lutControl (count : Nat) (pf : Option Rat) (s : State) : State :=
  ctrlLut (pfdSampleError count pf s) (outOfRange s.cfg (pfdSampleError count pf s)) (pfdSample count pf s)

@[simp] theorem lutControl_cfg (count : Nat) (pf : Option Rat) (s : State) : (lutControl count pf s).cfg = s.cfg :=
  ctrlLut_cfg _ _ _

theorem stepLut_eq_lutGetFreq (count : Nat) (pf : Option Rat) (s : State) :
    stepLut count pf s =
      lutGetFreq (!outOfRange s.cfg (pfdSampleError count pf s))
        (ctrlLutValue (pfdSampleError count pf s) (outOfRange s.cfg (pfdSampleError count pf s)) (pfdSample count pf s))
        (lutControl count pf s) := rfl

protected theorem State.Steady.lutControl {s : State} (h : s.Steady) (count : Nat) (pf : Option Rat) :
    (lutControl count pf s).Steady :=
  (h.pfdSample count pf).ctrlLut _ _

/-- In a steady LUT block the oscillator finds an entry and a legal `S.pll`, so the period does not raise. -/
theorem State.Steady.stepLut_succeeds {s : State} (h : s.Steady) (hv : s.cfg.variant = .lut) (count : Nat)
    (pf : Option Rat) : ∃ t, stepLut count pf s = .ok t :=
  lutGetFreq_of_legal _ _ (by simpa using h.valid.tableSize_pos hv) (h.lutControl count pf).pll.1

/-- Settles O34: each operation is a part of `STEP_LUT` with its results presented, and no part reads the result ports. -/
theorem stepLutIsThreeOperations : Obligations.StepLutIsThreeOperations := by
  intro s count pf hi hr hv
  refine ⟨rfl, fun hpf => ?_, fun hpf => (whenVariant_of_running hr hv _).trans (whenPositive_of_nonpos hpf _)⟩
  have hs := hi.steady hr
  obtain ⟨w, hw⟩ := hs.stepLut_succeeds hv count pf
  refine ⟨_, _, presentFreqLock w, _, _, _, _, execPfdGetError_eq_next.2 ⟨hr, hpf, rfl⟩, rfl,
    execCtrlLut_eq_next.2 ⟨hr, hv, rfl⟩, rfl, ?_, execStepLut_eq_next.2 ⟨hr, hv, hpf, .inl ⟨w, hw, rfl⟩⟩, rfl,
    (hs.stepLut hw).running.2⟩
  rw [ctrlLut_present]
  exact execLutGetFreq_present (hs.lutControl count pf).running (by simpa using hv) hw _

/-! ## A control period of the SDM variant (45_orchestrator_system R102) -/

/-- Settles O35: each operation is a part of `STEP_SDM` with its results presented; no part touches `S.dco`, from which the
results of the period are read. -/
theorem stepSdmIsThreeOperations : Obligations.StepSdmIsThreeOperations := by
  intro s count pf hr hv
  refine ⟨rfl, fun hpf => ?_, fun hpf => (whenVariant_of_running hr hv _).trans (whenPositive_of_nonpos hpf _)⟩
  exact ⟨_, _, _, _, _, _, execPfdGetError_eq_next.2 ⟨hr, hpf, rfl⟩, rfl, execCtrlSdm_eq_next.2 ⟨hr, hv, rfl⟩, rfl,
    execSdmSetPoint_eq_next.2 ⟨hr, hv, rfl⟩, execStepSdm_eq_next.2 ⟨hr, hv, hpf, rfl⟩⟩

/-! ## The period that resynchronises (45_orchestrator_system R107 (a) to (c)) -/

/-- Out of range the controller zeroes the accumulators (42_controller R73, R76 (b)). -/
theorem lutControl_of_outOfRange {s : State} {count : Nat} {pf : Option Rat} (hc : ConfigValid s.cfg)
    (h : outOfRange s.cfg (pfdSampleError count pf s) = true) :
    lutControl count pf s = ((pfdSample count pf s).setCtrl
      { s.ctrl with errorAccum := 0, errorAccumAccum := 0, totalError := 0 }).drawn := by
  have hcore := ctrlCore_firstLoop (s := pfdSample count pf s) hc (pfdSampleError count pf s)
  rw [lutControl, h, ctrlLut, if_pos rfl, hcore]
  rfl

/-- Out of range the oscillator gets the null operand, for which it writes nothing (43_lut_dco R83). -/
theorem stepLut_of_outOfRange {s : State} {count : Nat} {pf : Option Rat}
    (h : outOfRange s.cfg (pfdSampleError count pf s) = true) :
    stepLut count pf s = .ok (lutControl count pf s) := by
  rw [stepLut_eq_lutGetFreq, h]
  rfl

/-- Settles O36: such a period cannot raise, since the oscillator's null operand makes it read neither `S.pll` nor the
table. -/
theorem resynchronisationPeriodHoldsOscillator : Obligations.ResynchronisationPeriodHoldsOscillator := by
  intro s count pf hr hc hv hpf hout
  refine ⟨_, execStepLut_eq_next.2 ⟨hr, hv, hpf, .inl ⟨_, stepLut_of_outOfRange hout, rfl⟩⟩, ?_⟩
  rw [lutControl_of_outOfRange hc hout]
  exact ⟨hout, rfl, rfl, rfl, rfl⟩

/-! ## `RESET` (45_orchestrator_system R100, 10_state R29) -/

/-- Settles O38: a valid `PLL0` passes the checks of `CalcFrequency`, so it fits the register fields. -/
theorem resetWritesResetValues : Obligations.ResetWritesResetValues := by
  refine ⟨rfl, fun s => ⟨fun hc => ?_, fun c hc => ?_⟩⟩
  · obtain ⟨⟨-, hF⟩, hR, hOD, -⟩ := settingError_eq_none.1 hc.pll0_legal
    exact ⟨_, _, calcFrequency_eq_ok.2 ⟨hc.pll0_legal, rfl⟩, Nat.lt_succ_of_le hF, Nat.lt_succ_of_le hR,
      Nat.lt_succ_of_le hOD, execReset_eq_next.2 (.inl ⟨hc, rfl⟩)⟩
  · exact ⟨_, _, execReset_eq_next.2 (.inr ⟨c, hc, rfl⟩)⟩

theorem execReset_total (s : State) : ∃ t, exec .reset s = .next t := by
  cases hc : configError s.cfg with
  | none => exact ⟨_, execReset_eq_next.2 (.inl ⟨hc, rfl⟩)⟩
  | some c => exact ⟨_, execReset_eq_next.2 (.inr ⟨c, hc, rfl⟩)⟩

/-- Everything `RESET` writes is a constant or a function of the configuration, which it keeps. -/
theorem execReset_idempotent {s t : State} (h : exec .reset s = .next t) : exec .reset t = .next t := by
  rcases execReset_eq_next.1 h with ⟨hc, rfl⟩ | ⟨c, hc, rfl⟩
  · exact execReset_eq_next.2 (.inl ⟨hc, rfl⟩)
  · exact execReset_eq_next.2 (.inr ⟨c, hc, rfl⟩)

/-- From another state with the same configuration `RESET` leaves the same registers, fault registers and results. -/
theorem execReset_congr {s u t : State} (hcfg : u.cfg = s.cfg) (h : exec .reset s = .next t) :
    ∃ w, exec .reset u = .next w ∧
      t.regs = w.regs ∧ t.fault = w.fault ∧ t.faultCause = w.faultCause ∧ t.result = w.result := by
  rcases execReset_eq_next.1 h with ⟨hc, rfl⟩ | ⟨c, hc, rfl⟩
  · refine ⟨_, execReset_eq_next.2 (.inl ⟨hcfg ▸ hc, rfl⟩), ?_⟩
    rw [hcfg]
    exact ⟨rfl, rfl, rfl, rfl⟩
  · refine ⟨_, execReset_eq_next.2 (.inr ⟨c, hcfg ▸ hc, rfl⟩), ?_⟩
    rw [hcfg]
    exact ⟨rfl, rfl, rfl, rfl⟩

/-- Settles O39: a step from every state, whose writes the configuration determines, and which a second `RESET` repeats. -/
theorem resetReadsNoRegister : Obligations.ResetReadsNoRegister := by
  intro s u hcfg
  obtain ⟨t, ht⟩ := execReset_total s
  obtain ⟨w, hw, hsame⟩ := execReset_congr hcfg ht
  exact ⟨t, w, ht, hw, execReset_idempotent ht, hsame⟩

/-! ## `OBSERVE` (45_orchestrator_system R103) -/

/-- Settles O37: the one write is of the result ports. -/
theorem observeReturnsTuple : Obligations.ObserveReturnsTuple :=
  ⟨rfl, fun _ hr => execObserve_eq_next.2 ⟨hr, rfl⟩⟩

end Sys2Proof.Machine
end

section
/-! PROOFS of the exceptions family (60_exceptions): the checks of a configuration in order (R112), the refusals of a block
that does not run (R114), the exception and its record (R111, R115), and that a steady block does not raise (R113). -/

namespace Sys2Proof.Machine

/-! ## The configuration checks (60_exceptions R112)

Each check as one conditional, with the conditions as the spec writes them. -/

/-- Of two checks in a row the second counts where the first passes. -/
theorem ite_some_orElse {p : Prop} [Decidable p] (cause : Cause) (x y : Option Cause) :
    ((if p then some cause else x) <|> y) = if p then some cause else (x <|> y) := by
  split_ifs <;> rfl

theorem paramError_eq_ite (c : Config) :
    paramError c =
      if ¬ (0 < inputHz c ∧ 0 < windupSpan c ∧ (c.variant = .lut → 1 ≤ c.lut.length)) then some .configParam
      else none :=
  (ite_not ..).symm

/-- Checks 2 and 3, the four checks of `CalcFrequency` (40_pll_register_model R50). -/
theorem settingError_eq_ite (hz : Hz) (q : PllSetting) :
    settingError hz q =
      if q.F < 1 ∨ 8191 < q.F then some .pllFRange
      else if 63 < q.R then some .pllRRange
      else if 7 < q.OD then some .pllOdRange
      else if vcoHz hz q < 360000000 ∨ 1800000000 < vcoHz hz q then some .pllVcoRange
      else none := by
  simp only [settingError, not_and_or, not_le]
  rfl

theorem gainError_eq_ite (c : Config) :
    gainError c = if c.ki < 0 ∨ c.kii < 0 then some .ctrlGainNegative else none := by
  simp only [gainError, ← not_le, ← not_and_or, ite_not]

/-- Check 5, the conditions of 41_pfd R66. -/
theorem pfdError_eq_ite (c : Config) :
    pfdError c =
      if ¬ (0 < c.nominalOutputHz ∧ 0 < c.controlRateHz ∧ 0 ≤ c.ppmRange ∧ 1 ≤ c.countWidth ∧
        c.nominalOutputHz / c.controlRateHz + c.ppmRange / 1000000 * (c.nominalOutputHz / c.controlRateHz) <
          2 ^ c.countWidth) then some .pfdConfig
      else none := by
  rw [ite_not, pfdError, countModulus, Nat.cast_pow, Nat.cast_ofNat]
  rfl

theorem profileError_eq_ite (c : Config) :
    profileError c =
      if c.variant = .sdm ∧ ¬ (sdmInMin c ≤ sdmNominal c ∧ sdmNominal c ≤ sdmInMax c) then some .sdmProfile
      else none := by
  simp only [profileError, ← Classical.not_imp, ite_not]

/-- The comparison of adjacent entries, as a relation along the table (20_memory R31). -/
theorem tableMonotonic_iff_isChain {c : Config} :
    ∀ {l : List TableWord}, tableMonotonic c l = true ↔ l.IsChain fun a b => entryHz c a ≤ entryHz c b
  | [] => by simp [tableMonotonic]
  | [_] => by simp [tableMonotonic]
  | a :: b :: rest => by
    simp [tableMonotonic, List.isChain_cons_cons, tableMonotonic_iff_isChain (l := b :: rest)]

/-- Entries have the order of their fractions, compared by cross-multiplication (40_pll_register_model R55). -/
theorem entryHz_le_iff_fraction {c : Config} (h : 0 < inputHz c) (a b : TableWord) :
    entryHz c a ≤ entryHz c b ↔
      (wordF a).toNat.succ * (wordP b).toNat.succ ≤ (wordF b).toNat.succ * (wordP a).toNat.succ :=
  (outputHz_le_iff h (pll0 c) ..).trans (fracPart_enabled_le_iff (pll0 c) ..)

theorem tableMonotonic_iff_fractions {c : Config} (h : 0 < inputHz c) (l : List TableWord) :
    tableMonotonic c l = true ↔ ∀ i < l.length - 1,
      (wordF (l.getD i 0)).toNat.succ * (wordP (l.getD (i + 1) 0)).toNat.succ ≤
        (wordF (l.getD (i + 1) 0)).toNat.succ * (wordP (l.getD i 0)).toNat.succ := by
  rw [tableMonotonic_iff_isChain, List.isChain_iff_getElem]
  refine forall_congr' fun i => ?_
  rw [Nat.lt_sub_iff_add_lt]
  refine forall_congr' fun hi => ?_
  rw [entryHz_le_iff_fraction h, List.getD_eq_getElem _ _ hi, List.getD_eq_getElem _ _ (Nat.lt_of_succ_lt hi)]

/-- Check 7, the entries' fields written out. -/
theorem tableError_eq_ite {c : Config} (h : 0 < inputHz c) :
    tableError c =
      if c.variant = .lut ∧ ¬ (∀ i < c.lut.length - 1,
        ((c.lut.getD i 0).extractLsb' 8 8).toNat.succ * ((c.lut.getD (i + 1) 0).extractLsb' 0 8).toNat.succ ≤
        ((c.lut.getD (i + 1) 0).extractLsb' 8 8).toNat.succ * ((c.lut.getD i 0).extractLsb' 0 8).toNat.succ)
        then some .lutNotMonotonic
      else none := by
  simp only [tableError, tableMonotonic_iff_fractions h, ← Classical.not_imp, ite_not]
  rfl

/-- Settles O40: where `INPUT_HZ` is positive the checks are the conditionals above in a row; where it is not, the first
check fails on both sides. -/
theorem configurationChecksInOrder : Obligations.ConfigurationChecksInOrder := by
  intro c q E vco
  by_cases hpos : 0 < inputHz c
  · rw [configError, paramError_eq_ite, settingError_eq_ite, gainError_eq_ite, pfdError_eq_ite, profileError_eq_ite,
      tableError_eq_ite hpos]
    simp only [ite_some_orElse]
    rfl
  · simp [configError, paramError, hpos]

/-! ## The operations of a block that does not run (60_exceptions R114) -/

/-- Every operation but `RESET` and the reserved one, which is refused in any state, begins with the same test. -/
theorem exec_eq_whenRunning {i : Instr} (hreset : i ≠ .reset) (hreserved : i ≠ .reserved) (s : State) :
    ∃ k, exec i s = whenRunning s k := by
  cases i with
  | reset => exact absurd rfl hreset
  | reserved => exact absurd rfl hreserved
  | _ => exact ⟨_, rfl⟩

/-- Settles O41: the test refuses where the block does not run. -/
theorem onlyResetStepsWhenNotRunning : Obligations.OnlyResetStepsWhenNotRunning := by
  intro s i hr hreset
  by_cases hreserved : i = .reserved
  · subst hreserved
    exact ⟨_, reservedSelectorIsRefused s⟩
  · obtain ⟨k, hk⟩ := exec_eq_whenRunning hreset hreserved s
    exact hk ▸ whenRunning_of_not_running hr k

theorem running_of_exec_eq_next {i : Instr} {s t : State} (h : exec i s = .next t) (hreset : i ≠ .reset) :
    s.Running := by
  by_contra hr
  obtain ⟨r, hrefused⟩ := onlyResetStepsWhenNotRunning s i hr hreset
  exact nomatch h.symm.trans hrefused

/-! ## The two ways in which an operation other than `RESET` has a step (60_exceptions R111, R115) -/

/-- `t` has the fault flag and the fault record of `s`. -/
def State.KeepsFault (s t : State) : Prop := t.fault = s.fault ∧ t.faultSeen = s.faultSeen

/-- `t` is `s` with a fault latched by `i`, whose results are unspecified but for `fault = 1`, where `i` has that port
(R111, 30_encoding R41). -/
def State.RaisesBy (s : State) (i : Instr) (t : State) : Prop :=
  ∃ cause u, t = s.raiseConfigurationError cause u ∧
    ((∃ v, u = .freq v true) ∨ (∃ v x, i = .lutGetFreq v x) ∨ i = .sdmTick ∨ ∃ n pf, i = .stepLut n pf)

theorem State.KeepsFault.present {s t : State} (h : s.KeepsFault t) (r : Result) : s.KeepsFault (t.present r) := h

theorem pllWrite_keepsFault {r : PllRegs} {s t : State} (h : pllWrite r s = .ok t) : s.KeepsFault t := by
  obtain ⟨-, rfl⟩ := pllWrite_eq_ok.1 h
  exact ⟨rfl, rfl⟩

theorem lutGetFreq_keepsFault {v : Bool} {ctrl : Rat} {s t : State} (h : lutGetFreq v ctrl s = .ok t) :
    s.KeepsFault t := by
  rw [lutGetFreq_frame h]
  exact ⟨rfl, rfl⟩

theorem sdmTick_keepsFault {s t : State} (h : sdmTick s = .ok t) : s.KeepsFault t := by
  obtain ⟨-, rfl⟩ := sdmTick_eq_ok.1 h
  exact ⟨rfl, rfl⟩

theorem ctrlLut_keepsFault (error : Rat) (fl : Bool) (s : State) : s.KeepsFault (ctrlLut error fl s) := by
  rw [ctrlLut_eq]
  exact ⟨rfl, rfl⟩

theorem stepLut_keepsFault {count : Nat} {pf : Option Rat} {s t : State} (h : stepLut count pf s = .ok t) :
    s.KeepsFault t := by
  obtain ⟨hfault, hseen⟩ := lutGetFreq_keepsFault h
  obtain ⟨hfault', hseen'⟩ := ctrlLut_keepsFault (pfdSampleError count pf s) (pfdSample count pf s).pfd.firstLoop
    (pfdSample count pf s)
  exact ⟨hfault.trans hfault', hseen.trans hseen'⟩

/-- A `PLL_` operation that has a step wrote `S.pll`, or raised. -/
theorem commit_pllWrite_keepsFault_or_raises {i : Instr} {s t : State} {r : PllRegs}
    (h : commit s (unspecifiedFreq s) (presentFreq <$> pllWrite r s) = .next t) : s.KeepsFault t ∨ s.RaisesBy i t := by
  rcases commit_map_eq_next.1 h with ⟨u, hu, rfl⟩ | ⟨c, -, rfl⟩
  · exact .inl ((pllWrite_keepsFault hu).present _)
  · exact .inr ⟨c, _, rfl, .inl ⟨_, rfl⟩⟩

/-- Every step but `RESET`'s keeps the fault flag and the record, or takes the exception in the state before. -/
theorem exec_keepsFault_or_raises {i : Instr} {s t : State} (h : exec i s = .next t) (hreset : i ≠ .reset) :
    s.KeepsFault t ∨ s.RaisesBy i t := by
  cases i with
  | reset => exact absurd rfl hreset
  | pllUpdateAll | pllUpdateFrac | pllUpdateFracReg | pllCalcFreq =>
    exact commit_pllWrite_keepsFault_or_raises (whenRunning_eq_next.1 h).2
  | pfdGetError =>
    obtain ⟨-, -, rfl⟩ := execPfdGetError_eq_next.1 h
    exact .inl ⟨rfl, rfl⟩
  | ctrlCore =>
    obtain ⟨-, rfl⟩ := execCtrlCore_eq_next.1 h
    exact .inl ⟨rfl, rfl⟩
  | ctrlLut e fl =>
    obtain ⟨-, -, rfl⟩ := execCtrlLut_eq_next.1 h
    exact .inl (ctrlLut_keepsFault e fl s)
  | ctrlSdm =>
    obtain ⟨-, -, rfl⟩ := execCtrlSdm_eq_next.1 h
    exact .inl ⟨rfl, rfl⟩
  | lutGetFreq v x =>
    obtain ⟨-, -, ⟨u, hu, rfl⟩ | ⟨c, -, rfl⟩⟩ := execLutGetFreq_eq_next.1 h
    · exact .inl ((lutGetFreq_keepsFault hu).present _)
    · exact .inr ⟨c, _, rfl, .inr (.inl ⟨v, x, rfl⟩)⟩
  | sdmSetPoint =>
    obtain ⟨-, -, rfl⟩ := execSdmSetPoint_eq_next.1 h
    exact .inl ⟨rfl, rfl⟩
  | sdmTick =>
    obtain ⟨-, -, ⟨u, hu, rfl⟩ | ⟨c, -, rfl⟩⟩ := execSdmTick_eq_next.1 h
    · exact .inl ((sdmTick_keepsFault hu).present _)
    · exact .inr ⟨c, _, rfl, .inr (.inr (.inl rfl))⟩
  | stepLut n pf =>
    obtain ⟨-, -, -, ⟨u, hu, rfl⟩ | ⟨c, -, rfl⟩⟩ := execStepLut_eq_next.1 h
    · exact .inl ((stepLut_keepsFault hu).present _)
    · exact .inr ⟨c, _, rfl, .inr (.inr (.inr ⟨n, pf, rfl⟩))⟩
  | stepSdm =>
    obtain ⟨-, -, -, rfl⟩ := execStepSdm_eq_next.1 h
    exact .inl ⟨rfl, rfl⟩
  | observe =>
    obtain ⟨-, rfl⟩ := execObserve_eq_next.1 h
    exact .inl ⟨rfl, rfl⟩
  | reserved => exact nomatch h

/-- Settles O44: the operation began without a fault, so one that ends with a fault took the exception, which writes the
fault registers and the results only. -/
theorem exceptionIsPrecise : Obligations.ExceptionIsPrecise := by
  intro s t i h hreset hfault
  obtain ⟨hstarted, hclear⟩ := running_of_exec_eq_next h hreset
  rcases exec_keepsFault_or_raises h hreset with ⟨hkept, -⟩ | ⟨c, u, rfl, hports⟩
  · exact nomatch hfault.symm.trans (hkept.trans hclear)
  · exact ⟨rfl, rfl, hstarted, rfl, hports⟩

/-- Settles O46: `RESET` keeps the record, and clears the fault only where the configuration is valid; any other operation
begins without a fault, and keeps the record or sets it. -/
theorem faultRecordIsSticky : Obligations.FaultRecordIsSticky := by
  intro s t i h
  by_cases hreset : i = .reset
  · subst hreset
    rcases execReset_eq_next.1 h with ⟨hc, rfl⟩ | ⟨c, -, rfl⟩
    · exact ⟨id, fun _ _ => ⟨rfl, hc⟩⟩
    · exact ⟨fun _ => rfl, fun _ hcleared => nomatch hcleared⟩
  · refine ⟨fun hseen => ?_, fun hfault => ?_⟩
    · rcases exec_keepsFault_or_raises h hreset with ⟨-, hkept⟩ | ⟨c, u, rfl, -⟩
      · exact hkept.trans hseen
      · rfl
    · exact nomatch hfault.symm.trans (running_of_exec_eq_next h hreset).2

/-! ## A steady block does not raise (60_exceptions R113, 45_orchestrator_system R107 (d)) -/

/-- The operation answers a next state without a fault, or is refused. -/
def DoesNotRaise (o : Host.Outcome State Fault Refusal) : Prop :=
  (∃ t, o = .next t ∧ t.fault = false) ∨ ∃ r, o = .refused r

theorem State.Steady.doesNotRaise_next {t : State} (h : t.Steady) : DoesNotRaise (.next t) :=
  .inl ⟨t, rfl, h.running.2⟩

theorem doesNotRaise_whenRunning {s : State} {k : Host.Outcome State Fault Refusal} (h : DoesNotRaise k) :
    DoesNotRaise (whenRunning s k) := by
  by_cases hr : s.Running
  · rwa [whenRunning_of_running hr]
  · exact .inr (whenRunning_of_not_running hr k)

theorem doesNotRaise_whenVariant {s : State} {v : Variant} {k : Host.Outcome State Fault Refusal}
    (h : s.cfg.variant = v → DoesNotRaise k) : DoesNotRaise (whenVariant v s k) := by
  refine doesNotRaise_whenRunning ?_
  split_ifs with hv
  · exact h hv
  · exact .inr ⟨_, rfl⟩

theorem doesNotRaise_whenPositive {pf : Option Rat} {k : Host.Outcome State Fault Refusal} (h : DoesNotRaise k) :
    DoesNotRaise (whenPositive pf k) := by
  rcases lt_or_ge 0 (pf.getD 1) with hpf | hpf
  · rwa [whenPositive_of_positive hpf]
  · exact .inr ⟨_, whenPositive_of_nonpos hpf k⟩

/-- A computation that succeeds in a steady state is committed with its results. -/
theorem doesNotRaise_commit {s : State} {u : Result} {f : State → State} {r : Except Trap State}
    (hf : ∀ v, v.Steady → (f v).Steady) (hr : ∃ v, r = .ok v ∧ v.Steady) : DoesNotRaise (commit s u (f <$> r)) := by
  obtain ⟨v, rfl, hv⟩ := hr
  exact (hf v hv).doesNotRaise_next

/-- A steady block writes its live integer fields with any fraction (40_pll_register_model R53). -/
theorem State.Steady.doesNotRaise_pllWrite {s : State} (h : s.Steady) {r : PllRegs} (u : Result)
    (hr : settingError (inputHz s.cfg) r.setting = none) :
    DoesNotRaise (whenRunning s (commit s u (presentFreq <$> pllWrite r s))) :=
  have hw := pllWrite_of_legal hr
  doesNotRaise_whenRunning (doesNotRaise_commit (fun _ hv => hv.present _) ⟨_, hw, h.pllWrite hw⟩)

/-- Settles O45: the live integer fields are legal and the LUT variant has a table, so every computation succeeds, and
leaves the block steady. -/
theorem steadyStateNeverRaises : Obligations.SteadyStateNeverRaises := by
  intro s i hi hr hreset hall
  have hs := hi.steady hr
  change DoesNotRaise (exec i s)
  cases i with
  | reset => exact absurd rfl hreset
  | pllUpdateAll => exact absurd rfl (hall _ _ _ _ _ _)
  | pllUpdateFrac | pllUpdateFracReg | pllCalcFreq => exact hs.doesNotRaise_pllWrite _ hs.pll.1
  | pfdGetError =>
    exact doesNotRaise_whenRunning (doesNotRaise_whenPositive ((hs.pfdSample _ _).present _).doesNotRaise_next)
  | ctrlCore => exact doesNotRaise_whenRunning ((hs.ctrlCore _ _).present _).doesNotRaise_next
  | ctrlLut => exact doesNotRaise_whenVariant fun _ => ((hs.ctrlLut _ _).present _).doesNotRaise_next
  | ctrlSdm => exact doesNotRaise_whenVariant fun _ => ((hs.ctrlSdm _ _).present _).doesNotRaise_next
  | lutGetFreq v x =>
    refine doesNotRaise_whenVariant fun hv => doesNotRaise_commit (fun _ hu => hu.present _) ?_
    obtain ⟨t, ht⟩ := lutGetFreq_of_legal v x (hs.valid.tableSize_pos hv) hs.pll.1
    exact ⟨t, ht, hs.lutGetFreq ht⟩
  | sdmSetPoint => exact doesNotRaise_whenVariant fun _ => ((hs.setSdm _).present _).doesNotRaise_next
  | sdmTick =>
    refine doesNotRaise_whenVariant fun _ => doesNotRaise_commit (fun _ hu => hu.present _) ?_
    obtain ⟨t, ht⟩ := sdmTick_of_legal hs.pll.1
    exact ⟨t, ht, hs.sdmTick ht⟩
  | stepLut n pf =>
    refine doesNotRaise_whenVariant fun hv =>
      doesNotRaise_whenPositive (doesNotRaise_commit (fun _ hu => hu.present _) ?_)
    obtain ⟨t, ht⟩ := hs.stepLut_succeeds hv n pf
    exact ⟨t, ht, hs.stepLut ht⟩
  | stepSdm =>
    exact doesNotRaise_whenVariant fun _ => doesNotRaise_whenPositive ((hs.stepSdm _ _).present _).doesNotRaise_next
  | observe => exact doesNotRaise_whenRunning (hs.present _).doesNotRaise_next
  | reserved => exact .inr ⟨_, rfl⟩

end Sys2Proof.Machine
end

section
/-! PROOFS of the opcode table's words (30_encoding R40): the decoder on a row of the table. -/

namespace Sys2Proof

/-! ## The words of the opcode table (30_encoding R40) -/

/-- A word of four bits is a selector, presented with every operand port 0 or absent. -/
theorem decodeTableWord_of_narrow (nbits : Nat) {w : Nat} (hw : w < 16) :
    decodeTableWord nbits w = some (decode { op := BitVec.ofNat 4 w }) := by
  rw [decodeTableWord, frameOfWord, if_pos hw]

theorem decodeTableWord_of_wide (nbits : Nat) {w : Nat} (hw : 16 ≤ w) : decodeTableWord nbits w = none := by
  rw [decodeTableWord, frameOfWord, if_neg hw.not_gt]

/-- An operation that drives no operand port (each is 0 or absent) is read back from its selector alone. -/
theorem decodeTableWord_selector (nbits : Nat) (i : Instr) (hi : encode i = { op := selector i }) :
    decodeTableWord nbits (selector i).toNat = some i := by
  rw [decodeTableWord_of_narrow nbits (selector i).isLt, BitVec.ofNat_toNat, BitVec.setWidth_eq, ← hi, decode_encode]

/-- Settles O2: each written word is the selector of its operation, whose operands are 0 or absent; and `10000` has a fifth
bit. -/
theorem writtenSelectorsDecode : Obligations.WrittenSelectorsDecode :=
  ⟨decodeTableWord_selector 8 (.pllUpdateFracReg 0) rfl, decodeTableWord_selector 8 (.pfdGetError 0 none) rfl,
    decodeTableWord_selector 8 (.ctrlSdm 0 false) rfl, decodeTableWord_selector 8 (.lutGetFreq false 0) rfl,
    decodeTableWord_selector 8 .sdmTick rfl, decodeTableWord_selector 8 .observe rfl,
    decodeTableWord_selector 8 .reserved rfl, decodeTableWord_of_wide 8 le_rfl⟩

end Sys2Proof
end
